-- ==== Sys2Proof/Word.lean ====
section
/-! DEFINITION. The GIE's plain value types (spec/00_scope.md R7): unsigned integers of a stated width, bit 0 the
least significant. One-bit values (`u1`) are `Bool`, `true` for 1. -/

namespace Sys2Proof

/-- `u8`. -/
abbrev Byte := BitVec 8

/-- `u32`: the PRNG state, a command word, a word on HOST's bus (R7, R80). -/
abbrev Word := BitVec 32

/-- A lane number: 0 Left, 1 Right, 2 Up, 3 Down (10_state.md R38). -/
abbrev Lane := Fin 4

end Sys2Proof
end

