-- ==== Sys2Proof/Syntax.lean ====
section
/-! DEFINITION. The commands of the GIE: one constructor of `Instr` per row of spec/opcode_table.json, their operands
(30_encoding.md R81, R82), and the assembler lines HOST's programmer writes, with the pseudo-commands (R85, R86). -/

namespace Sys2Proof

/-- The eight flags of the bank, by name (10_state.md R31). -/
inductive Flag where
  | exit
  | confirm
  | timer
  | btn0
  | btn1
  | btn2
  | btn3
  | btn4
  deriving DecidableEq, Repr, Inhabited

/-- The eight commands (30_encoding.md R82). An operand's type is its legal range (R81): `size : u8`, `f : u3` (a flag
of the bank), `v : u16`. -/
inductive Instr where
  /-- SEED: start seeding the PRNG (40_prng.md R101). -/
  | seed
  /-- ADVANCE: apply the mix step to `S` (40_prng.md R104). -/
  | advance
  /-- DRAW #size: bounded draw from `S` (40_prng.md R107). -/
  | draw (size : Byte)
  /-- FTEST f: read one flag into RESULT (41_event_flags.md R135). -/
  | ftest (f : Flag)
  /-- FCLR f: clear one flag (41_event_flags.md R136). -/
  | fclr (f : Flag)
  /-- DIGITS #v: render a value with the digit routine (42_guess_number.md R163). -/
  | digits (v : BitVec 16)
  /-- RUNGUESS: start one round of Guess-The-Number (42_guess_number.md R170). -/
  | runguess
  /-- RUNSEQ: start one Sequence-Memory session (43_sequence_memory.md R190). -/
  | runseq
  deriving DecidableEq, Repr, Inhabited

/-- A flag operand of an assembler line: a name, or a number 0..7 (30_encoding.md R85). -/
inductive FlagRef where
  | name (f : Flag)
  | number (n : Nat)
  deriving DecidableEq, Repr

/-- An assembler line, read down to its tokens: the mnemonic and the operand as written (30_encoding.md R85), the
pseudo-commands NEXT and ACK included (R86). Its checks are in WellFormed.lean. -/
inductive AsmLine where
  | seed
  | advance
  | draw (size : Nat)
  | ftest (f : FlagRef)
  | fclr (f : FlagRef)
  | digits (v : Nat)
  | runguess
  | runseq
  /-- `NEXT #size`: ADVANCE, then DRAW #size. -/
  | next (size : Nat)
  /-- `ACK flag`: FCLR flag. -/
  | ack (f : FlagRef)
  deriving DecidableEq, Repr

end Sys2Proof
end

