-- ==== Sys2Proof/Agents.lean ====
section
/-! DEFINITION. The agents of the GIE system and the atomic steps each may take (10_state.md R20 to R25): the
vocabulary of the schedule that State's agenda and `Config.freeAction` are written in. -/

namespace Sys2Proof

/-- The interrupt sources SRC[f]: one per flag other than TIMER (10_state.md R23). TIMER has no SRC agent, so none
is named. -/
inductive Source where
  | exit
  | confirm
  | btn0
  | btn1
  | btn2
  | btn3
  | btn4
  deriving DecidableEq, Repr, Inhabited

/-- ENV's answers to the samples one ENGINE step may take (10_state.md R25, R42). A step samples at most one port; the
answers to the other two are not read. -/
structure Inputs where
  /-- `sample(NOISE)`, u1. -/
  noise : Bool
  /-- `sample(SW)`, u8: bit i is DIP switch i. -/
  sw : Byte
  /-- `sample(DIR)`, u4: bit 0 Left, 1 Right, 2 Up, 3 Down. -/
  dir : BitVec 4
  deriving DecidableEq, Repr, Inhabited

/-- One atomic step of one agent (10_state.md R20, 00_scope.md R10). -/
inductive Action where
  /-- HOST's `MemWrite(GIE_BASE + off, n, v)` (20_memory.md R64). -/
  | hostWrite (off : BitVec 4) (n : Nat) (v : Word)
  /-- HOST's `MemRead(GIE_BASE + off, n)` (20_memory.md R63). -/
  | hostRead (off : BitVec 4) (n : Nat)
  /-- ENGINE's step, with ENV's answers to the samples it takes (10_state.md R22, R25). -/
  | engine (inp : Inputs)
  /-- The step of SRC[f]: one physical edge of the source (10_state.md R23). -/
  | src (f : Source)
  /-- TIMER's step (10_state.md R24). -/
  | timer
  /-- The platform's reset signal (70_reset_and_hazards.md R260); `restartsHost` says whether HOST, if it was stuck at
  an access, goes on after it (the spec does not say: log 7). -/
  | reset (restartsHost : Bool)
  deriving DecidableEq, Repr, Inhabited

/-- The steps of HOST, who has none while it is stuck (20_memory.md R62). -/
def Action.isHost : Action → Bool
  | .hostWrite _ _ _ => true
  | .hostRead _ _ => true
  | .engine _ => false
  | .src _ => false
  | .timer => false
  | .reset _ => false

end Sys2Proof
end

