-- ==== Sys2Proof/Config.lean ====
section
/-! DEFINITION. What an implementation fixes (00_scope.md R6): the spec's literals as named constants with their
normative values, the parameters the spec leaves OPEN as constants with no body, and the model's one free value,
`Config.freeAction`. -/

namespace Sys2Proof

/-- Which level changes of the direction vector are capture events (41_event_flags.md R142). -/
inductive CapturePolicy where
  /-- Newly asserted lanes: the spec's default. -/
  | pressNew
  /-- A newly asserted lane makes an event; the lane is chosen among all asserted ones. -/
  | pressLevel
  /-- Presses and releases. -/
  | anyChange
  deriving DecidableEq, Repr, Inhabited

/-- The symbolic durations of the timed waits (00_scope.md R6, 41_event_flags.md R141). Their lengths are OPEN and
have no effect on any state (R140), so they are names only (log 12). -/
inductive Duration where
  | presentOn
  | presentGap
  | check
  | result
  deriving DecidableEq, Repr, Inhabited

namespace Config

/-- `MIX_S1` (R6). -/
def mixS1 : Nat := 13
/-- `MIX_M` (R6). -/
def mixM : Word := 0x85EBCA6B
/-- `MIX_S2` (R6). -/
def mixS2 : Nat := 16
/-- `GUESS_RANGE` (R6). -/
def guessRange : Word := 255
/-- `SEQ_LEN` (R6), at the width of `STEP` and `POS`. -/
def seqLen : BitVec 3 := 6
/-- `LANES` (R6), as a draw size. -/
def lanes : Word := 4
/-- `LIVES0` (R6). -/
def lives0 : Byte := 3
/-- `CAPTURE_POLICY` (R6): the spec's default by 90_conflicts.md C4 (log 11). -/
def capturePolicy : CapturePolicy := .pressNew
/-- The largest value the digit routine renders (42_guess_number.md R163, 92_eei_decisions.md D26). -/
def digitsMax : Nat := 9999

/-- `GIE_BASE / 16`: OPEN (R6, 20_memory.md R61). -/
opaque gieBaseUnit : Nat

/-- `GIE_BASE`, a multiple of 16 (20_memory.md R61). -/
def gieBase : Nat := 16 * gieBaseUnit

/-- The four indicator ids an implementation was given for the lanes: OPEN (R6). -/
opaque laneIndChoice : Lane → BitVec 3

/-- `LANE_IND[l]`: OPEN, four distinct ids in 0..7 (00_scope.md R6, 92_eei_decisions.md D28). Any distinct choice
stands as it is; a choice that is not distinct, which D28 rules out, is read as the identity (log 9). -/
def laneInd (l : Lane) : BitVec 3 :=
  if ∀ a b : Lane, laneIndChoice a = laneIndChoice b → a = b then laneIndChoice l
  else BitVec.ofNat 3 l.val

/-- The k-th step that the world takes when State's agenda names none: which agent steps, HOST's access, ENV's
answers. FREE: the spec leaves the order of the agents and every sample open (10_state.md R20, R25, 20_memory.md R68),
so it has no body and nothing constrains it (log 1). -/
opaque freeAction : Nat → Action

end Config

end Sys2Proof
end

