-- ==== Sys2Proof/WellFormed.lean ====
section
/-! DEFINITION. Which terms are well-formed: the operand ranges of an assembler line (30_encoding.md R85) and of a
command (R81). A command's operands are typed by their ranges, so every `Instr` passes; a line's are not. -/

namespace Sys2Proof

/-- A flag operand: any name of R31, or a number 0..7 (30_encoding.md R85). -/
def FlagRef.wellFormed : FlagRef → Bool
  | .name _ => true
  | .number n => decide (n < 8)

/-- `DRAW #size` (and `NEXT #size`): 0..255; `DIGITS #v`: 0..65535; a flag operand as above (30_encoding.md R85). -/
def AsmLine.wellFormed : AsmLine → Bool
  | .seed => true
  | .advance => true
  | .draw size => decide (size < 256)
  | .ftest f => f.wellFormed
  | .fclr f => f.wellFormed
  | .digits v => decide (v < 65536)
  | .runguess => true
  | .runseq => true
  | .next size => decide (size < 256)
  | .ack f => f.wellFormed

/-- The legal range of each operand (30_encoding.md R81, last column). The operand types give exactly these ranges: a
size of 0 and a value above 9999 are legally encoded and fault only when the command runs. -/
def Instr.wellFormed : Instr → Bool
  | .seed => true
  | .advance => true
  | .draw size => decide (size.toNat < 256)
  | .ftest f => (FlagRef.name f).wellFormed
  | .fclr f => (FlagRef.name f).wellFormed
  | .digits v => decide (v.toNat < 65536)
  | .runguess => true
  | .runseq => true

end Sys2Proof
end

