-- ==== Sys2Proof/Decode.lean ====
section
/-! DEFINITION. Command words (30_encoding.md R80 to R86): the fields of a word, the decoder, total on 32-bit words and
rejecting by name, then the encoder, the opcode map of R82 as rows of match and mask, and the expansion of assembler
lines. -/

namespace Sys2Proof

/-! ## Flag indices (10_state.md R31) -/

/-- The index of a flag in the bank. -/
def Flag.index : Flag → Fin 8
  | .exit => 0
  | .confirm => 1
  | .timer => 2
  | .btn0 => 3
  | .btn1 => 4
  | .btn2 => 5
  | .btn3 => 6
  | .btn4 => 7

/-- The flag with a given index. -/
def Flag.ofIndex : Fin 8 → Flag
  | 0 => .exit
  | 1 => .confirm
  | 2 => .timer
  | 3 => .btn0
  | 4 => .btn1
  | 5 => .btn2
  | 6 => .btn3
  | 7 => .btn4

/-! ## Fields and decoder -/

/-- `OP`, bits 31:24 (R80). -/
def opField (w : Word) : Byte := w.extractLsb' 24 8

/-- `A`, bits 23:16 (R80). -/
def aField (w : Word) : Byte := w.extractLsb' 16 8

/-- `IMM`, bits 15:0 (R80). -/
def immField (w : Word) : BitVec 16 := w.extractLsb' 0 16

/-- Why a word is no command (30_encoding.md R83); each raises ILLEGAL. -/
inductive Reject where
  /-- OP is 0x00 or 0x09..0xFF. -/
  | undefinedOp
  /-- A command that uses no `A` has a non-zero bit there. -/
  | nonzeroA
  /-- A command that uses no `IMM`, or only its low byte, has a non-zero bit in the unused part. -/
  | nonzeroImm
  /-- FTEST or FCLR with a flag index above 7. -/
  | flagIndex
  deriving DecidableEq, Repr

/-- A command with neither field: `A == 0` and `IMM == 0` (R81, last row). -/
def decodePlain (w : Word) (i : Instr) : Except Reject Instr :=
  if aField w ≠ 0 then .error .nonzeroA
  else if immField w ≠ 0 then .error .nonzeroImm
  else .ok i

/-- FTEST and FCLR: `f` is `A[2:0]`, with `A[7:3] == 0` and `IMM == 0` (R81, R83). -/
def decodeFlag (w : Word) (mk : Flag → Instr) : Except Reject Instr :=
  if immField w ≠ 0 then .error .nonzeroImm
  else if h : (aField w).toNat < 8 then .ok (mk (Flag.ofIndex ⟨(aField w).toNat, h⟩))
  else .error .flagIndex

/-- DRAW: `size` is `IMM[7:0]`, with `IMM[15:8] == 0` and `A == 0` (R81). -/
def decodeDraw (w : Word) : Except Reject Instr :=
  if aField w ≠ 0 then .error .nonzeroA
  else if (immField w).extractLsb' 8 8 ≠ 0 then .error .nonzeroImm
  else .ok (.draw ((immField w).extractLsb' 0 8))

/-- DIGITS: `v` is `IMM`, any value, with `A == 0` (R81). -/
def decodeDigits (w : Word) : Except Reject Instr :=
  if aField w ≠ 0 then .error .nonzeroA
  else .ok (.digits (immField w))

/-- The command a word is (R82, R84): OP selects the row, whose other bits are then checked; every other word is
illegal (R83). -/
def decode (w : Word) : Except Reject Instr :=
  match (opField w).toNat with
  | 1 => decodePlain w .seed
  | 2 => decodePlain w .advance
  | 3 => decodeDraw w
  | 4 => decodeFlag w .ftest
  | 5 => decodeFlag w .fclr
  | 6 => decodeDigits w
  | 7 => decodePlain w .runguess
  | 8 => decodePlain w .runseq
  | _ => .error .undefinedOp

/-- The command word given by the low `nbits` bits of `w`, every bit above them zero. -/
def wordOfTable (nbits w : Nat) : Word := BitVec.ofNat 32 (w % 2 ^ nbits)

/-- The host's question about an opcode-table row. A command is one 32-bit word (R80); a longer one is none of the
GIE's. -/
def decodeTableWord (nbits w : Nat) : Option Instr :=
  if nbits ≤ 32 then (decode (wordOfTable nbits w)).toOption else none

/-! ## Encoder (30_encoding.md R80 to R82, R85) -/

/-- OP of a command (R82). -/
def Instr.op : Instr → Byte
  | .seed => 0x01
  | .advance => 0x02
  | .draw _ => 0x03
  | .ftest _ => 0x04
  | .fclr _ => 0x05
  | .digits _ => 0x06
  | .runguess => 0x07
  | .runseq => 0x08

/-- The `A` field of a command: the flag index of FTEST and FCLR, 0 for every other (R80). -/
def Instr.fieldA : Instr → Byte
  | .ftest f => BitVec.ofNat 8 f.index.val
  | .fclr f => BitVec.ofNat 8 f.index.val
  | .seed => 0
  | .advance => 0
  | .draw _ => 0
  | .digits _ => 0
  | .runguess => 0
  | .runseq => 0

/-- The `IMM` field of a command: the size of DRAW, the value of DIGITS, 0 for every other (R80). -/
def Instr.fieldImm : Instr → BitVec 16
  | .draw size => size.setWidth 16
  | .digits v => v
  | .seed => 0
  | .advance => 0
  | .ftest _ => 0
  | .fclr _ => 0
  | .runguess => 0
  | .runseq => 0

/-- The word of a command: `{OP, A, IMM}` (R80). -/
def encode (i : Instr) : Word := i.op ++ i.fieldA ++ i.fieldImm

/-! ## The opcode map (30_encoding.md R82) -/

/-- A command's mnemonic, as R82 and spec/opcode_table.json spell it. -/
def Instr.mnemonic : Instr → String
  | .seed => "SEED"
  | .advance => "ADVANCE"
  | .draw _ => "DRAW"
  | .ftest _ => "FTEST"
  | .fclr _ => "FCLR"
  | .digits _ => "DIGITS"
  | .runguess => "RUNGUESS"
  | .runseq => "RUNSEQ"

/-- One row of R82's map. -/
structure OpRow where
  mnemonic : String
  pattern : Word
  mask : Word
  deriving DecidableEq, Repr

/-- The eight rows of R82. -/
def opcodeMap : List OpRow :=
  [⟨"SEED", 0x01000000, 0xFFFFFFFF⟩, ⟨"ADVANCE", 0x02000000, 0xFFFFFFFF⟩,
   ⟨"DRAW", 0x03000000, 0xFFFFFF00⟩, ⟨"FTEST", 0x04000000, 0xFFF8FFFF⟩,
   ⟨"FCLR", 0x05000000, 0xFFF8FFFF⟩, ⟨"DIGITS", 0x06000000, 0xFFFF0000⟩,
   ⟨"RUNGUESS", 0x07000000, 0xFFFFFFFF⟩, ⟨"RUNSEQ", 0x08000000, 0xFFFFFFFF⟩]

/-- `(w & mask) == match` (R82). -/
def OpRow.matchesWord (r : OpRow) (w : Word) : Bool := w &&& r.mask == r.pattern

/-! ## Assembler lines and pseudo-commands (30_encoding.md R85, R86) -/

/-- The flag an operand names; a number is taken modulo 8, which matters only to a line that is not well-formed. -/
def FlagRef.flag : FlagRef → Flag
  | .name f => f
  | .number n => Flag.ofIndex (Fin.ofNat 8 n)

/-- The commands of a line: one, but two for NEXT (R86). -/
def AsmLine.expand : AsmLine → List Instr
  | .seed => [.seed]
  | .advance => [.advance]
  | .draw size => [.draw (BitVec.ofNat 8 size)]
  | .ftest f => [.ftest f.flag]
  | .fclr f => [.fclr f.flag]
  | .digits v => [.digits (BitVec.ofNat 16 v)]
  | .runguess => [.runguess]
  | .runseq => [.runseq]
  | .next size => [.advance, .draw (BitVec.ofNat 8 size)]
  | .ack f => [.fclr f.flag]

/-- The command words of a well-formed line; none for a line whose operand is out of range (R85). -/
def AsmLine.assemble (l : AsmLine) : Option (List Word) :=
  if l.wellFormed then some (l.expand.map encode) else none

end Sys2Proof
end

