-- ==== Sys2Proof/Machine/State.lean ====
section
/-! DEFINITION. The machine's state: every piece of state spec/10_state.md gives the GIE (R26 to R34, R40), the fields
that say what the other agents do next, the outcomes other than a next state, and the state after reset (R45). -/

namespace Sys2Proof.Machine

/-- The states a timed wait can lead to (10_state.md R26, `WAIT(n)`). -/
inductive WaitTarget where
  | gShow
  | gEnd
  | qPresent
  | qPresentOff
  | qCapInit
  | qEnd
  deriving DecidableEq, Repr, Inhabited

/-- The engine control state `ctl`, the GIE's analogue of a program counter (10_state.md R26). -/
inductive Ctl where
  | idle
  | seeding (i : Fin 32)
  | gSetup
  | gAwait
  | gShow
  | gEnd
  | qEntry
  | qPresent
  | qPresentOff
  | qCapInit
  | qCapture
  | qVerify
  | qEnd
  | wait (n : WaitTarget)
  | halted
  deriving DecidableEq, Repr, Inhabited

/-- Display records (10_state.md R40). -/
inductive Disp where
  | prompt
  | win
  | lose
  /-- One decimal digit, 0..9. -/
  | digit (d : BitVec 4)
  /-- A value for the generic formatter. -/
  | value (v : Byte)
  /-- The lives label. -/
  | lives
  deriving DecidableEq, Repr, Inhabited

/-- Output events (10_state.md R40). -/
inductive Event where
  /-- Set one indicator on or off. -/
  | ind (id : BitVec 3) (on : Bool)
  /-- Extinguish all indicators. -/
  | extAll
  /-- Start a timed wait. -/
  | tstart (d : Duration)
  | disp (r : Disp)
  deriving DecidableEq, Repr, Inhabited

/-- The causes of a fault (60_exceptions.md R238). -/
inductive FaultCause where
  | illegal
  | busy
  | unseeded
  | reseed
  | drawZero
  | digitRange
  deriving DecidableEq, Repr, Inhabited

/-- Why a step stops the model. There is no such reason: the GIE's own fault is a state it goes on from (FAULT, FCAUSE,
HALTED, 60_exceptions.md R231, R240), and a HOST that has no step (20_memory.md R62) leaves the other agents
running. So the type is empty, which is safe: no behaviour is cut short (log 14). -/
inductive Fault where
  deriving DecidableEq, Repr

/-- Why a step is refused. -/
inductive Refusal where
  /-- Raised by an arm of `exec` whose instruction has no meaning yet; no arm does. Safe: a refusal only leaves
  claims unprovable. -/
  | notModelled (mnemonic : String)
  deriving DecidableEq, Repr

/-- Everything spec/10_state.md gives the machine (R45's table), and what the model keeps of the other agents. -/
structure State where
  /-- `ctl` (R26). -/
  ctl : Ctl
  /-- `S` (R27). -/
  prng : Word
  /-- `SEEDED` (R28). -/
  seeded : Bool
  /-- `RESULT` (R29). -/
  result : Byte
  /-- `F[0..7]`, by index (R31). -/
  flags : Vector Bool 8
  /-- `FAULT` (R33). -/
  fault : Bool
  /-- `FCAUSE` (R33). -/
  fcause : BitVec 4
  /-- `TARMED` (R34). -/
  tarmed : Bool
  /-- `TARGET` (R30). -/
  target : Byte
  /-- `CAPT` (R30). -/
  capt : Byte
  /-- `TSEQ[0..3]`, by lane (R30). -/
  tseq : Vector Byte 4
  /-- `CSEQ[0..3]`, by lane (R30). -/
  cseq : Vector Byte 4
  /-- `LIVES` (R30). -/
  lives : Byte
  /-- `STEP` (R30). -/
  stepNo : BitVec 3
  /-- `CURL`, u2: a lane number (R30). -/
  curl : Lane
  /-- `POS` (R30). -/
  pos : BitVec 3
  /-- `BASE` (R30). -/
  base : BitVec 4
  /-- `OUTC` (R30). -/
  outc : Bool
  /-- The output trace, oldest event first (R40). -/
  trace : List Event
  /-- The model's own: HOST is stuck at an access that is not admitted (20_memory.md R62, log 7). -/
  hostStuck : Bool
  /-- The model's own: what HOST's last admitted read returned; none before its first (20_memory.md R63, log 15). -/
  rdata : Option Word
  /-- The model's own: the agents' next steps, the next one first (10_state.md R20, log 1). -/
  agenda : List Action
  /-- The model's own: how many free actions have been used (log 1). -/
  draws : Nat
  deriving DecidableEq, Repr

/-- The machine right after reset (10_state.md R45): the values the spec states; `S` and the session registers,
which R45 leaves unspecified, at the values of logs 4 and 5 (zero); nothing on the agenda (log 1). -/
def State.reset : State where
  ctl := .idle
  prng := 0
  seeded := false
  result := 0
  flags := Vector.replicate 8 false
  fault := false
  fcause := 0
  tarmed := false
  target := 0
  capt := 0
  tseq := Vector.replicate 4 0
  cseq := Vector.replicate 4 0
  lives := 0
  stepNo := 0
  curl := 0
  pos := 0
  base := 0
  outc := false
  trace := []
  hostStuck := false
  rdata := none
  agenda := []
  draws := 0

end Sys2Proof.Machine
end

