-- ==== Sys2Proof/Machine/Operands.lean ====
section
/-! DEFINITION. Values computed from operands and registers: zero extension, the bounded draw (40_prng.md R107, R109),
single-bit writes, lane bitmasks, and the decimal-digit routine (42_guess_number.md R160). -/

namespace Sys2Proof.Machine

/-- `zext_8` of a u1 (00_scope.md R7). -/
def zext8 (b : Bool) : Byte := if b then 1 else 0

/-- `(S mod zext_32(size))[7:0]` (40_prng.md R107, R109). -/
def drawValue (s size : Word) : Byte := (s % size).setWidth 8

/-- `v[i] <- b` for one bit of a word (40_prng.md R102). -/
def setWordBit (v : Word) (i : Nat) (b : Bool) : Word :=
  if b then v ||| (1#32 <<< i) else v &&& ~~~(1#32 <<< i)

/-- `x[l] <- x[l] | (1 << k)` for a lane array (43_sequence_memory.md R192, R195). -/
def markLane (x : Vector Byte 4) (l : Lane) (k : BitVec 3) : Vector Byte 4 :=
  x.set l.val (x.get l ||| (1#8 <<< k.toNat)) l.isLt

/-- `for l in 0..3: x[l] <- 0` (43_sequence_memory.md R191, R197). -/
def clearLanes : Vector Byte 4 := Vector.replicate 4 0

/-- `x[0] == y[0] and ... and x[3] == y[3]` (43_sequence_memory.md R197). -/
def lanesEqual (x y : Vector Byte 4) : Bool :=
  x.get 0 == y.get 0 && x.get 1 == y.get 1 && x.get 2 == y.get 2 && x.get 3 == y.get 3

/-! ## The decimal-digit routine (42_guess_number.md R160 to R162) -/

/-- `while p * 10 <= v: p <- p * 10`, with at most `fuel` rounds. -/
def growPower : (fuel v p : Nat) → Nat
  | 0, _, p => p
  | fuel + 1, v, p => if p * 10 ≤ v then growPower fuel v (p * 10) else p

/-- `while p > 0: emit v / p; v <- v mod p; p <- p / 10`, with at most `fuel` rounds: the digits emitted. -/
def peelDigits : (fuel v p : Nat) → List (BitVec 4)
  | 0, _, _ => []
  | fuel + 1, v, p => if 0 < p then BitVec.ofNat 4 (v / p) :: peelDigits fuel (v % p) (p / 10) else []

/-- The digits of `v`, most significant first (R160). Five rounds bound both loops for every u16 (R161: `p` takes
only 1, 10, 100, 1000 for `v <= 9999`; log 17). -/
def digitsOf (v : BitVec 16) : List (BitVec 4) := peelDigits 5 v.toNat (growPower 5 v.toNat 1)

end Sys2Proof.Machine
end

