-- ==== Sys2Proof/Machine/Flags.lean ====
section
/-! DEFINITION. The flag bank (10_state.md R31), STATUS and the other readable registers (R32, 20_memory.md R61, R63),
the fault codes (60_exceptions.md R238), and the edge detector (41_event_flags.md R142). -/

namespace Sys2Proof.Machine

/-! ## The flag bank -/

/-- `F[f]`. -/
def State.flag (s : State) (f : Flag) : Bool := s.flags.get f.index

/-- `F[f] <- b`. -/
def State.putFlag (s : State) (f : Flag) (b : Bool) : State :=
  { s with flags := s.flags.set f.index.val b f.index.isLt }

/-- The flag of an interrupt source (10_state.md R23, R31). -/
def sourceFlag : Source → Flag
  | .exit => .exit
  | .confirm => .confirm
  | .btn0 => .btn0
  | .btn1 => .btn1
  | .btn2 => .btn2
  | .btn3 => .btn3
  | .btn4 => .btn4

/-! ## STATUS -/

/-- FCAUSE of a cause (60_exceptions.md R238). -/
def faultCode : FaultCause → BitVec 4
  | .illegal => 1
  | .busy => 2
  | .unseeded => 3
  | .reseed => 4
  | .drawZero => 5
  | .digitRange => 6

/-- BUSY: `ctl` is neither IDLE nor HALTED (10_state.md R32). -/
def State.busy (s : State) : Bool := !(s.ctl == .idle) && !(s.ctl == .halted)

/-- STATUS, composed on each read: bit 0 BUSY, 1 SEEDED, 2 FAULT, 7:4 FCAUSE, every other bit 0 (10_state.md R32). -/
def State.status (s : State) : Word :=
  0#24 ++ s.fcause ++ 0#1 ++ BitVec.ofBool s.fault ++ BitVec.ofBool s.seeded ++ BitVec.ofBool s.busy

/-! ## The edge detector -/

/-- The lowest set bit of a direction vector: priority Left, Right, Up, Down (41_event_flags.md R142). -/
def lowestLane (sel : BitVec 4) : Option Lane :=
  if sel.getLsbD 0 then some 0
  else if sel.getLsbD 1 then some 1
  else if sel.getLsbD 2 then some 2
  else if sel.getLsbD 3 then some 3
  else none

/-- `sel`: the lanes a change selects, by policy (41_event_flags.md R142). -/
def selectLanes (policy : CapturePolicy) (base cur : BitVec 4) : BitVec 4 :=
  match policy with
  | .pressNew => cur &&& ~~~base
  | .pressLevel => if cur &&& ~~~base ≠ 0 then cur else 0
  | .anyChange => cur ^^^ base

/-- `detect(base, cur)`: the event, if any, and the new baseline (41_event_flags.md R142). -/
def detect (policy : CapturePolicy) (base cur : BitVec 4) : Option Lane × BitVec 4 :=
  if cur = base then (none, base)
  else if selectLanes policy base cur = 0 then (none, cur)
  else (lowestLane (selectLanes policy base cur), cur)

end Sys2Proof.Machine
end

