-- ==== Sys2Proof/Machine/Ops.lean ====
section
/-! DEFINITION. The operations the meanings share: emitting events (10_state.md R40), taking a fault
(60_exceptions.md R231) and leaving it by reset (R242, 70_reset_and_hazards.md R260), the acceptance of a command (R230),
arming a timed wait (41_event_flags.md R139), and choosing which agent steps next (10_state.md R20). -/

namespace Sys2Proof.Machine

/-! ## The output trace -/

/-- `emit(E)`: append to the trace (00_scope.md R9). -/
def State.emit (s : State) (e : Event) : State := { s with trace := s.trace ++ [e] }

/-- Several `emit`s in order. -/
def State.emitAll (s : State) (es : List Event) : State := { s with trace := s.trace ++ es }

/-- `emit_digits(v)` (42_guess_number.md R160). -/
def State.emitDigits (s : State) (v : BitVec 16) : State :=
  s.emitAll ((digitsOf v).map fun d => .disp (.digit d))

/-- What one event does to the indicator `i`: `Ind` sets the named one, `ExtAll` turns every one off, the rest do
nothing (10_state.md R41). -/
def indicatorEvent (i : BitVec 3) (was : Option Bool) (e : Event) : Option Bool :=
  match e with
  | .ind id on => if id = i then some on else was
  | .extAll => some false
  | .tstart _ => was
  | .disp _ => was

/-- The state of indicator `i` after a trace: none before any event that sets it, when it is as the host's other
features left it (10_state.md R41). -/
def indicator (trace : List Event) (i : BitVec 3) : Option Bool := trace.foldl (indicatorEvent i) none

/-! ## Control -/

/-- `ctl <- X` (00_scope.md R9). -/
def State.goto (s : State) (c : Ctl) : State := { s with ctl := c }

/-- The control state a wait leads to (10_state.md R26). -/
def waitTargetCtl : WaitTarget → Ctl
  | .gShow => .gShow
  | .gEnd => .gEnd
  | .qPresent => .qPresent
  | .qPresentOff => .qPresentOff
  | .qCapInit => .qCapInit
  | .qEnd => .qEnd

/-- Arming a wait of duration `d` toward `n`: TStart(d), TARMED, WAIT(n); TIMER's flag is not cleared
(41_event_flags.md R139). -/
def State.armWait (s : State) (d : Duration) (n : WaitTarget) : State :=
  { s with trace := s.trace ++ [.tstart d], tarmed := true, ctl := .wait n }

/-! ## Faults -/

/-- `raise Fault(c)`: FAULT, FCAUSE and HALTED; nothing else changes (60_exceptions.md R231). There is no vector, no
saved context and no mode (R241). -/
def State.raise (s : State) (c : FaultCause) : State :=
  { s with fault := true, fcause := faultCode c, ctl := .halted }

/-- The way out of HALTED, and there is no other (60_exceptions.md R242): the platform's reset takes every piece of
GIE state to its reset value in any control state (70_reset_and_hazards.md R260, 10_state.md R45). What is not the
GIE's stays: HOST's last read value, the schedule, and HOST's being stuck unless the reset restarts HOST too (log 7). -/
def State.platformReset (s : State) (restartsHost : Bool) : State :=
  { State.reset with
    hostStuck := s.hostStuck && !restartsHost
    rdata := s.rdata
    agenda := s.agenda
    draws := s.draws }

/-- HOST's write of a legal command (60_exceptions.md R230): ignored in HALTED, BUSY unless `ctl` is IDLE, else the
command's own rule. A word that is no command is turned away before this (Machine/Window.lean). -/
def State.accept (s : State) (rule : State → State) : State :=
  match s.ctl with
  | .halted => s
  | .idle => rule s
  | .seeding _ | .gSetup | .gAwait | .gShow | .gEnd | .qEntry | .qPresent | .qPresentOff | .qCapInit | .qCapture
  | .qVerify | .qEnd | .wait _ => s.raise .busy

/-! ## The schedule -/

/-- Which agent's step comes next: the agenda's first, or, when the agenda is used up, a free one (log 1). -/
def State.nextAction (s : State) : Action × State :=
  match s.agenda with
  | a :: rest => (a, { s with agenda := rest })
  | [] => (Config.freeAction s.draws, { s with draws := s.draws + 1 })

end Sys2Proof.Machine
end

