-- ==== Sys2Proof/Machine/EventFlags.lean ====
section
/-! DEFINITION. The event-flag unit (spec/41_event_flags.md): FTEST and FCLR, the set steps of the interrupt sources and
of TIMER, and the timed wait. -/

namespace Sys2Proof.Machine

/-- FTEST f (41_event_flags.md R135): RESULT takes the flag, which is not cleared. Legal before seeding. -/
def execFtest (f : Flag) (s : State) : Host.Outcome State Fault Refusal :=
  .next (s.accept fun s => { s with result := zext8 (s.flag f) })

/-- FCLR f (41_event_flags.md R136). Legal before seeding. -/
def execFclr (f : Flag) (s : State) : Host.Outcome State Fault Refusal :=
  .next (s.accept fun s => s.putFlag f false)

/-- The step of SRC[f] (10_state.md R23, 41_event_flags.md R131): unconditional, in every control state. -/
def sourceStep (f : Source) (s : State) : State := s.putFlag (sourceFlag f) true

/-- TIMER's step, enabled exactly when TARMED is 1 (10_state.md R24); when it is not, nothing happens (log 6). -/
def timerStep (s : State) : State :=
  if s.tarmed then { s.putFlag .timer true with tarmed := false } else s

/-- `WAIT(n)` (41_event_flags.md R140): the test and the clear of TIMER's flag are one step; else the engine spins. -/
def waitStep (n : WaitTarget) (s : State) : State :=
  if s.flag .timer then (s.putFlag .timer false).goto (waitTargetCtl n) else s

end Sys2Proof.Machine
end

