-- ==== Sys2Proof/Machine/Prng.lean ====
section
/-! DEFINITION. The PRNG unit (spec/40_prng.md): SEED and the SEEDING steps, the mix step and ADVANCE, DRAW, and the
engine's internal advance-and-draw. -/

namespace Sys2Proof.Machine

/-- `mix` (40_prng.md R103): XOR-shift, multiply modulo 2^32, XOR-shift; the shifts are logical. -/
def mix (s : Word) : Word :=
  let a := s ^^^ (s >>> Config.mixS1)
  let b := a * Config.mixM
  b ^^^ (b >>> Config.mixS2)

/-- `next_draw(n)`: advance, then draw from the new state (40_prng.md R109). -/
def nextDraw (s : State) (n : Word) : Byte × State :=
  (drawValue (mix s.prng) n, { s with prng := mix s.prng })

/-- SEED (40_prng.md R101). -/
def execSeed (s : State) : Host.Outcome State Fault Refusal :=
  .next (s.accept fun s => if s.seeded then s.raise .reseed else s.goto (.seeding 0))

/-- `SEEDING(i)`, one step of ENGINE (40_prng.md R102): sample i becomes bit i of S; the last one sets SEEDED. -/
def seedingStep (i : Fin 32) (noise : Bool) (s : State) : State :=
  let s := { s with prng := setWordBit s.prng i.val noise }
  if h : i.val + 1 < 32 then s.goto (.seeding ⟨i.val + 1, h⟩)
  else { s with seeded := true, ctl := .idle }

/-- ADVANCE (40_prng.md R104). -/
def execAdvance (s : State) : Host.Outcome State Fault Refusal :=
  .next (s.accept fun s => if s.seeded then { s with prng := mix s.prng } else s.raise .unseeded)

/-- DRAW #size (40_prng.md R107, R108): UNSEEDED is checked before DRAW_ZERO. -/
def execDraw (size : Byte) (s : State) : Host.Outcome State Fault Refusal :=
  .next (s.accept fun s =>
    if !s.seeded then s.raise .unseeded
    else if size = 0 then s.raise .drawZero
    else { s with result := drawValue s.prng (size.setWidth 32) })

end Sys2Proof.Machine
end

