-- ==== Sys2Proof/Machine/GuessNumber.lean ====
section
/-! DEFINITION. The digit command and Guess-The-Number (spec/42_guess_number.md): DIGITS, RUNGUESS, and one function per
control state of the game. -/

namespace Sys2Proof.Machine

/-- DIGITS #v (42_guess_number.md R163). Legal before seeding. -/
def execDigits (v : BitVec 16) (s : State) : Host.Outcome State Fault Refusal :=
  .next (s.accept fun s => if Config.digitsMax < v.toNat then s.raise .digitRange else s.emitDigits v)

/-- RUNGUESS (42_guess_number.md R170). -/
def execRunguess (s : State) : Host.Outcome State Fault Refusal :=
  .next (s.accept fun s => if s.seeded then s.goto .gSetup else s.raise .unseeded)

/-- `G_SETUP` (42_guess_number.md R171). -/
def gSetup (s : State) : State :=
  let s := s.emit .extAll
  let d := nextDraw s Config.guessRange
  let s := { d.2 with target := d.1 }
  (s.emit (.disp .prompt)).goto .gAwait

/-- `G_AWAIT` (42_guess_number.md R172): sample SW, then test CONFIRM; both in one step. -/
def gAwait (sw : Byte) (s : State) : State :=
  let s := { s with capt := sw }
  if s.flag .confirm then (s.putFlag .confirm false).armWait .check .gShow else s

/-- `G_SHOW` (42_guess_number.md R174). -/
def gShow (s : State) : State :=
  let s :=
    if s.capt = s.target then { s.emit (.disp .win) with outc := true }
    else
      { ((s.emit (.disp .lose)).emitDigits (s.capt.setWidth 16)).emit (.disp (.value s.target)) with outc := false }
  s.armWait .result .gEnd

/-- `G_END` (42_guess_number.md R178). -/
def gEnd (s : State) : State := { s with result := zext8 s.outc, ctl := .idle }

end Sys2Proof.Machine
end

