-- ==== Sys2Proof/Machine/SequenceMemory.lean ====
section
/-! DEFINITION. Sequence-Memory (spec/43_sequence_memory.md): RUNSEQ, and one function per control state of the game. -/

namespace Sys2Proof.Machine

/-- RUNSEQ (43_sequence_memory.md R190). -/
def execRunseq (s : State) : Host.Outcome State Fault Refusal :=
  .next (s.accept fun s => if s.seeded then s.goto .qEntry else s.raise .unseeded)

/-- The lives display: the label, then the digits of the count (10_state.md R40, 43_sequence_memory.md R191, R197). -/
def showLives (s : State) : State := (s.emit (.disp .lives)).emitDigits (s.lives.setWidth 16)

/-- `Q_ENTRY` (43_sequence_memory.md R191). -/
def qEntry (s : State) : State :=
  let s := s.emit .extAll
  let s := { s with tseq := clearLanes, cseq := clearLanes, lives := Config.lives0 }
  { showLives s with stepNo := 0, pos := 0, ctl := .qPresent }

/-- `Q_PRESENT` (43_sequence_memory.md R192). -/
def qPresent (s : State) : State :=
  let d := nextDraw s Config.lanes
  let lane : Lane := Fin.ofNat 4 d.1.toNat
  let s := { d.2 with tseq := markLane d.2.tseq lane d.2.stepNo, curl := lane }
  (s.emit (.ind (Config.laneInd lane) true)).armWait .presentOn .qPresentOff

/-- `Q_PRESENT_OFF` (43_sequence_memory.md R193). -/
def qPresentOff (s : State) : State :=
  let s := s.emit (.ind (Config.laneInd s.curl) false)
  let s := { s with stepNo := s.stepNo + 1 }
  if s.stepNo = Config.seqLen then s.armWait .presentGap .qCapInit else s.armWait .presentGap .qPresent

/-- `Q_CAPINIT` (43_sequence_memory.md R194). -/
def qCapInit (dir : BitVec 4) (s : State) : State := { s with base := dir, ctl := .qCapture }

/-- The feedback and the record of one captured event (43_sequence_memory.md R195). -/
def captureEvent (ev : Option Lane) (s : State) : State :=
  match ev with
  | none => s
  | some l =>
    { s.emit (.ind (Config.laneInd l) true) with cseq := markLane s.cseq l s.pos, pos := s.pos + 1 }

/-- `Q_CAPTURE` under a capture policy (43_sequence_memory.md R195). -/
def qCapture (policy : CapturePolicy) (dir : BitVec 4) (s : State) : State :=
  let d := detect policy s.base dir
  let s := captureEvent d.1 { s with base := d.2 }
  if s.pos = Config.seqLen then s.goto .qVerify else s

/-- `Q_VERIFY` (43_sequence_memory.md R197). -/
def qVerify (s : State) : State :=
  let s := s.emit .extAll
  if lanesEqual s.tseq s.cseq then
    { s.emit (.disp .win) with outc := true }.armWait .result .qEnd
  else
    let s : State := { showLives { s with lives := s.lives - 1 } with cseq := clearLanes, pos := 0 }
    if 0 < s.lives.toNat then s.goto .qCapInit
    else { s.emit (.disp .lose) with outc := false }.armWait .result .qEnd

/-- `Q_END` (43_sequence_memory.md R203). -/
def qEnd (s : State) : State := { s with result := zext8 s.outc, ctl := .idle }

end Sys2Proof.Machine
end

