-- ==== Sys2Proof/Machine/Engine.lean ====
section
/-! DEFINITION. ENGINE's step: one function per control state (10_state.md R22, R26). -/

namespace Sys2Proof.Machine

/-- ENGINE's step under a capture policy, with ENV's answers. It has none in IDLE and in HALTED (10_state.md R22,
60_exceptions.md R240): nothing happens there (log 6). -/
def engineStepUnder (policy : CapturePolicy) (inp : Inputs) (s : State) : State :=
  match s.ctl with
  | .idle => s
  | .seeding i => seedingStep i inp.noise s
  | .gSetup => gSetup s
  | .gAwait => gAwait inp.sw s
  | .gShow => gShow s
  | .gEnd => gEnd s
  | .qEntry => qEntry s
  | .qPresent => qPresent s
  | .qPresentOff => qPresentOff s
  | .qCapInit => qCapInit inp.dir s
  | .qCapture => qCapture policy inp.dir s
  | .qVerify => qVerify s
  | .qEnd => qEnd s
  | .wait n => waitStep n s
  | .halted => s

/-- ENGINE's step (00_scope.md R6: the policy is the implementation's). -/
def engineStep (inp : Inputs) (s : State) : State := engineStepUnder Config.capturePolicy inp s

end Sys2Proof.Machine
end

