-- ==== Sys2Proof/Machine/Dispatch.lean ====
section
/-! DEFINITION. HOST's command, instruction by instruction: one arm per constructor of `Instr`. -/

namespace Sys2Proof.Machine

/-- HOST's write step to CMD of a legal command word, the checks of 60_exceptions.md R230 included. -/
def exec (i : Instr) (s : State) : Host.Outcome State Fault Refusal :=
  match i with
  | .seed => Sys2Proof.Machine.execSeed s
  | .advance => Sys2Proof.Machine.execAdvance s
  | .draw size => Sys2Proof.Machine.execDraw size s
  | .ftest f => Sys2Proof.Machine.execFtest f s
  | .fclr f => Sys2Proof.Machine.execFclr f s
  | .digits v => Sys2Proof.Machine.execDigits v s
  | .runguess => Sys2Proof.Machine.execRunguess s
  | .runseq => Sys2Proof.Machine.execRunseq s

end Sys2Proof.Machine
end

