-- ==== Sys2Proof/Machine/Window.lean ====
section
/-! DEFINITION. HOST's register window (spec/20_memory.md): which accesses are admitted, what a read returns, what a
write does, and where the window lies on HOST's bus. -/

namespace Sys2Proof.Machine

/-- The window offset of a host bus address, none outside the 16 bytes at GIE_BASE (20_memory.md R61): such an access
is none of the GIE's. DESIGN CHOICE (log 10, safe): an access belongs to the window by its START address alone, so one
that begins below GIE_BASE and reaches into the window (4 bytes at GIE_BASE - 1) is none of the GIE's and leaves HOST
free; R62 does not say whose it is. -/
def windowOffset (addr : Nat) : Option (BitVec 4) :=
  if Config.gieBase ≤ addr ∧ addr < Config.gieBase + 16 then some (BitVec.ofNat 4 (addr - Config.gieBase)) else none

/-- `MemRead(addr, n)` as a step of HOST on the GIE (00_scope.md R9). -/
def memRead (addr n : Nat) : Option Action := (windowOffset addr).map fun off => .hostRead off n

/-- `MemWrite(addr, n, v)` as a step of HOST on the GIE (00_scope.md R9). -/
def memWrite (addr n : Nat) (v : Word) : Option Action := (windowOffset addr).map fun off => .hostWrite off n v

/-- Only a 32-bit access at offset 0x0, 0x4 or 0x8 is admitted (20_memory.md R62). -/
def admitted (off : BitVec 4) (n : Nat) : Bool := n == 4 && (off == 0x0 || off == 0x4 || off == 0x8)

/-- What an admitted read returns (20_memory.md R63): 0 for CMD, RESULT zero-extended, STATUS. -/
def readRegister (off : BitVec 4) (s : State) : Word :=
  if off = 0x4 then s.result.setWidth 32 else if off = 0x8 then s.status else 0

/-- A write of word `w` to CMD (60_exceptions.md R230): ignored in HALTED; ILLEGAL when it is no command; else the
command. -/
def writeCmd (w : Word) (s : State) : Host.Outcome State Fault Refusal :=
  if s.ctl = .halted then .next s
  else
    match decode w with
    | .error _ => .next (s.raise .illegal)
    | .ok i => exec i s

/-- HOST's read (20_memory.md R63); one that is not admitted leaves HOST stuck there (R62). -/
def hostReadStep (off : BitVec 4) (n : Nat) (s : State) : State :=
  if admitted off n then { s with rdata := some (readRegister off s) } else { s with hostStuck := true }

/-- HOST's write (20_memory.md R64): a command at offset 0x0, no effect on RESULT and STATUS; one that is not admitted
leaves HOST stuck there (R62). -/
def hostWriteStep (off : BitVec 4) (n : Nat) (v : Word) (s : State) : Host.Outcome State Fault Refusal :=
  if admitted off n then (if off = 0x0 then writeCmd v s else .next s) else .next { s with hostStuck := true }

/-- One agent's atomic step (10_state.md R20). A HOST that is stuck has none (20_memory.md R62). -/
def act (a : Action) (s : State) : Host.Outcome State Fault Refusal :=
  if a.isHost && s.hostStuck then .next s
  else
    match a with
    | .hostWrite off n v => hostWriteStep off n v s
    | .hostRead off n => .next (hostReadStep off n s)
    | .engine inp => .next (engineStep inp s)
    | .src f => .next (sourceStep f s)
    | .timer => .next (timerStep s)
    | .reset restartsHost => .next (s.platformReset restartsHost)

end Sys2Proof.Machine
end

