-- ==== Sys2Proof/Machine/Step.lean ====
section
/-! DEFINITION. The step function: the next agent's atomic step (10_state.md R20, 20_memory.md R67). -/

namespace Sys2Proof.Machine

/-- One atomic step of the whole system: the agent that is next takes its step. -/
def step (s : State) : Host.Outcome State Fault Refusal := act s.nextAction.1 s.nextAction.2

/-- `s` with HOST about to write the table's word to CMD: the GIE fetches nothing, and a command arrives as one write
(20_memory.md R60, R64). It becomes the next thing that happens, and HOST is not stuck (log 2). -/
def State.withFetchWord (s : State) (nbits w : Nat) : State :=
  { s with agenda := .hostWrite 0x0 4 (wordOfTable nbits w) :: s.agenda, hostStuck := false }

end Sys2Proof.Machine
end

