-- ==== Sys2Proof/Machine/HostProgram.lean ====
section
/-! DEFINITION. Host programs (30_encoding.md R87): the lines of a program, and the schedule R87's convention gives
them, as a list of actions to lay on State's agenda. The convention picks ONE admitted interleaving; the machine itself
admits every other (20_memory.md R68). -/

namespace Sys2Proof.Machine

/-- One line of a host program: HOST's lines, then the environment's (30_encoding.md R87). -/
inductive ProgramLine where
  /-- `CMD <assembler line>`. -/
  | cmd (l : AsmLine)
  /-- `WAITIDLE`. -/
  | waitIdle
  /-- `RD RESULT`. -/
  | rdResult
  /-- `RD STATUS`. -/
  | rdStatus
  /-- `NOISE b0 b1 ...`: answers to the next samples of NOISE. -/
  | noise (bits : List Bool)
  /-- `SW v`: the answer to every sample of SW until the next such line. -/
  | sw (v : Byte)
  /-- `DIR v`: the answer to the next sample of DIR. -/
  | dir (v : BitVec 4)
  /-- `SET flag`: one step of that flag's SRC agent. -/
  | set (f : Source)
  /-- `TICK`: one step of TIMER. -/
  | tick
  deriving DecidableEq, Repr

/-- An execution so far: the machine, the answers given and not yet read, and the steps taken, oldest first. -/
structure Execution where
  machine : State
  noise : List Bool
  sw : Option Byte
  dir : List (BitVec 4)
  steps : List Action
  deriving DecidableEq, Repr

/-- Take one agent's step. -/
def Execution.take (x : Execution) (a : Action) : Execution :=
  match act a x.machine with
  | .next t => { x with machine := t, steps := x.steps ++ [a] }
  | .fault _ => x
  | .refused _ => x

/-- ENGINE's next step under R87's convention, and the execution with the answer it reads used up; none in the states
where the convention lets ENGINE rest (30_encoding.md R87, and a sample of SW that no line has answered: log 18). -/
def Execution.engineTurn (x : Execution) : Option (Action × Execution) :=
  match x.machine.ctl with
  | .idle => none
  | .halted => none
  | .wait _ => if x.machine.flag .timer then some (.engine default, x) else none
  | .gAwait =>
    if x.machine.flag .confirm then x.sw.map fun v => (.engine { (default : Inputs) with sw := v }, x) else none
  | .seeding _ =>
    match x.noise with
    | [] => none
    | b :: rest => some (.engine { (default : Inputs) with noise := b }, { x with noise := rest })
  | .qCapInit | .qCapture =>
    match x.dir with
    | [] => none
    | v :: rest => some (.engine { (default : Inputs) with dir := v }, { x with dir := rest })
  | .gSetup | .gShow | .gEnd | .qEntry | .qPresent | .qPresentOff | .qVerify | .qEnd => some (.engine default, x)

/-- ENGINE takes every step the convention gives it, at most `fuel` of them. -/
def Execution.runEngine : Nat → Execution → Execution
  | 0, x => x
  | fuel + 1, x =>
    match x.engineTurn with
    | none => x
    | some (a, y) => (y.take a).runEngine fuel

/-- HOST writes command words one after the other, ENGINE running after each. -/
def Execution.writeWords (fuel : Nat) : List Word → Execution → Execution
  | [], x => x
  | w :: ws, x => ((x.take (.hostWrite 0x0 4 w)).runEngine fuel).writeWords fuel ws

/-- One line, then ENGINE (30_encoding.md R87). None for a line that does not assemble, and for a WAITIDLE that reads
BUSY: ENGINE rests, so HOST polls for ever and the line does not end. -/
def Execution.line (fuel : Nat) (x : Execution) : ProgramLine → Option Execution
  | .cmd l => l.assemble.map fun ws => x.writeWords fuel ws
  | .waitIdle =>
    let y := x.take (.hostRead 0x8 4)
    if y.machine.rdata.map (·.getLsbD 0) = some false then some y else none
  | .rdResult => some (x.take (.hostRead 0x4 4))
  | .rdStatus => some (x.take (.hostRead 0x8 4))
  | .noise bits => some ({ x with noise := x.noise ++ bits }.runEngine fuel)
  | .sw v => some ({ x with sw := some v }.runEngine fuel)
  | .dir v => some ({ x with dir := x.dir ++ [v] }.runEngine fuel)
  | .set f => some ((x.take (.src f)).runEngine fuel)
  | .tick => some ((x.take .timer).runEngine fuel)

/-- A program's lines in order; none where one of them does not end. -/
def Execution.lines (fuel : Nat) : List ProgramLine → Execution → Option Execution
  | [], x => some x
  | l :: ls, x => (x.line fuel l).bind fun y => y.lines fuel ls

/-- A program from reset (95_test_vectors.md section 3), ENGINE taking at most `fuel` steps after each line. -/
def runProgram (fuel : Nat) (ls : List ProgramLine) : Option Execution :=
  Execution.lines fuel ls ⟨State.reset, [], none, [], []⟩

end Sys2Proof.Machine
end

