-- ==== Sys2Proof/Safety.lean ====
section
/-! DEFINITION. What counts as a good state and a good run, in the terms the claims use: faulted and ended runs
(70_reset_and_hazards.md R278), TIMER's fairness (10_state.md R24), and the invariants the spec's rules give every reachable
state. -/

namespace Sys2Proof.Safety

open Sys2Proof.Machine

/-! ## Runs -/

/-- A run has faulted when FAULT is 1 at any point (70_reset_and_hazards.md R278, 60_exceptions.md R240). -/
def Faulted (run : List State) : Prop := ∃ s ∈ run, s.fault = true

/-- A run has ended in `s`: HOST has performed its last line (no step of HOST is left on the agenda, and HOST is not
stuck) and `ctl` is IDLE (70_reset_and_hazards.md R278). -/
def Ended (s : State) : Prop := (∀ a ∈ s.agenda, a.isHost = false) ∧ s.hostStuck = false ∧ s.ctl = .idle

/-- An infinite run of the machine. -/
def IsRun (run : Nat → State) : Prop := ∀ k, step (run k) = .next (run (k + 1))

/-- TIMER's weak fairness: whenever TIMER is enabled, it later takes its step or is disabled (10_state.md R24). A premise
for liveness claims, built into no step (log 8). -/
def TimerFair (run : Nat → State) : Prop :=
  ∀ k, (run k).tarmed = true → ∃ j, k ≤ j ∧ ((run j).nextAction.1 = .timer ∨ (run j).tarmed = false)

/-! ## Invariants -/

/-- FAULT is 1 exactly in HALTED; FCAUSE is 0 while FAULT is 0 and one of 1 to 6 while it is 1 (10_state.md R33,
60_exceptions.md R231, R238). -/
def FaultInv (s : State) : Prop :=
  (s.fault = true ↔ s.ctl = .halted) ∧
  (s.fault = false → s.fcause = 0) ∧
  (s.fault = true → 1 ≤ s.fcause.toNat ∧ s.fcause.toNat ≤ 6)

/-- SEEDED is 0 while seeding and 1 while a game runs (40_prng.md R101, R102, 60_exceptions.md R234). -/
def SeedInv (s : State) : Prop :=
  match s.ctl with
  | .seeding _ => s.seeded = false
  | .idle => True
  | .halted => True
  | .gSetup | .gAwait | .gShow | .gEnd | .qEntry | .qPresent | .qPresentOff | .qCapInit | .qCapture | .qVerify
  | .qEnd | .wait _ => s.seeded = true

/-- A TStart is outstanding, or its TIMER event is pending, exactly while ENGINE waits for it: in `WAIT(n)` exactly one
of TARMED and F[TIMER] is 1; in HALTED at most one; elsewhere neither (10_state.md R34, 41_event_flags.md R135, R139). -/
def TimerInv (s : State) : Prop :=
  match s.ctl with
  | .wait _ => s.tarmed = !(s.flag .timer)
  | .halted => ¬(s.tarmed = true ∧ s.flag .timer = true)
  | .idle | .seeding _ | .gSetup | .gAwait | .gShow | .gEnd | .qEntry | .qPresent | .qPresentOff | .qCapInit
  | .qCapture | .qVerify | .qEnd => s.tarmed = false ∧ s.flag .timer = false

/-- The round's registers: TARGET is in 0..254 from G_SETUP on, and after G_SHOW the outcome is Win exactly when the
capture is the target (42_guess_number.md R171, R174). -/
def GuessInv (s : State) : Prop :=
  match s.ctl with
  | .gAwait | .wait .gShow | .gShow => s.target.toNat ≤ 254
  | .wait .gEnd | .gEnd => s.target.toNat ≤ 254 ∧ (s.outc = true ↔ s.capt = s.target)
  | _ => True

/-- In how many lanes bit `k` is set. -/
def lanesAt (x : Vector Byte 4) (k : Nat) : Nat :=
  (List.finRange 4).countP fun l => (x.get l).getLsbD k

/-- A lane array that records the positions below `n`: each in exactly one lane, no other bit set
(43_sequence_memory.md R196). -/
def RecordsUpTo (x : Vector Byte 4) (n : Nat) : Prop :=
  ∀ k : Fin 8, lanesAt x k.val = if k.val < n then 1 else 0

/-- LIVES is 1, 2 or 3. -/
def HasLives (s : State) : Prop := 1 ≤ s.lives.toNat ∧ s.lives.toNat ≤ 3

/-- Before the first attempt: three lives, nothing captured (43_sequence_memory.md R191). -/
def Untried (s : State) : Prop := s.lives.toNat = 3 ∧ s.pos = 0 ∧ RecordsUpTo s.cseq 0

/-- The session's registers, state by state: how far the target and the capture have been recorded, the lives, and
after Q_VERIFY the outcome (43_sequence_memory.md R191 to R199). -/
def SequenceInv (s : State) : Prop :=
  match s.ctl with
  | .qPresent | .wait .qPresent => s.stepNo.toNat ≤ 5 ∧ RecordsUpTo s.tseq s.stepNo.toNat ∧ Untried s
  | .wait .qPresentOff | .qPresentOff =>
    s.stepNo.toNat ≤ 5 ∧ RecordsUpTo s.tseq (s.stepNo.toNat + 1) ∧ (s.tseq.get s.curl).getLsbD s.stepNo.toNat = true ∧
    Untried s
  | .wait .qCapInit => RecordsUpTo s.tseq 6 ∧ Untried s
  | .qCapInit => RecordsUpTo s.tseq 6 ∧ RecordsUpTo s.cseq 0 ∧ s.pos = 0 ∧ HasLives s
  | .qCapture => RecordsUpTo s.tseq 6 ∧ s.pos.toNat ≤ 5 ∧ RecordsUpTo s.cseq s.pos.toNat ∧ HasLives s
  | .qVerify => RecordsUpTo s.tseq 6 ∧ RecordsUpTo s.cseq 6 ∧ s.pos = 6 ∧ HasLives s
  | .wait .qEnd | .qEnd =>
    if s.outc = true then s.tseq = s.cseq ∧ HasLives s else s.lives = 0 ∧ RecordsUpTo s.cseq 0
  | _ => True

/-- Bits 7:6 of the eight lane registers are 0 (10_state.md R30). Unlike the invariants above it speaks of TSEQ and CSEQ
in every state: right after a reset it holds only by the model's reset values (log 5), so what is stated of it leaves
the reset's step out. -/
def LaneBitsInv (s : State) : Prop := ∀ l : Lane, (s.tseq.get l).toNat < 64 ∧ (s.cseq.get l).toNat < 64

end Sys2Proof.Safety
end

