-- ==== Sys2Proof/Certificates/Slice0/Obligations.lean ====
section
/-! DEFINITION. The statements for the provers, drawn from the numbered rules of spec/. Each docstring names the rule.
Record updates are written out, so that an equation of states is at once the result and the frame. -/

open Sys2Proof Sys2Proof.Machine Sys2Proof.Safety

namespace Sys2Proof.Claims

/-- `s` after `raise Fault(c)`: the three writes of 60_exceptions.md R231 and no other. -/
def haltedWith (s : State) (c : BitVec 4) : State := { s with fault := true, fcause := c, ctl := .halted }

/-- The lane that shows position `k`, for an array that records each position once (43_sequence_memory.md R196). -/
def laneOf (x : Vector Byte 4) (k : Nat) : Option Lane := (List.finRange 4).find? fun l => (x.get l).getLsbD k

/-- `a` is the set step of flag `f` in `s`: its SRC agent's, or TIMER's while it is enabled (10_state.md R23, R24). -/
def IsSetStep (a : Action) (f : Flag) (s : State) : Prop :=
  (∃ g, a = .src g ∧ sourceFlag g = f) ∨ (a = .timer ∧ f = .timer ∧ s.tarmed = true)

/-- HOST's write of a command. -/
def command (i : Instr) : Action := .hostWrite 0x0 4 (encode i)

/-- One presentation step as the agents take it: Q_PRESENT, the on-hold, Q_PRESENT_OFF, the gap. -/
def presentTurn : List Action :=
  [.engine default, .timer, .engine default, .engine default, .timer, .engine default]

end Sys2Proof.Claims

open Sys2Proof.Claims

/-! ## Encoding and decoding -/

/-- 30_encoding.md R80 to R82: decoding a command's own word gives the command, every operand at every value. -/
def Obligations.DecodeOfEncodeIsIdentity : Prop :=
  ∀ i : Instr, i.wellFormed = true → decode (encode i) = .ok i

/-- 30_encoding.md R80 to R83: a word that decodes is the word of the command it decodes to, so no two words are one
command and no bit is dropped. -/
def Obligations.EncodeOfDecodeIsIdentity : Prop :=
  ∀ (w : Word) (i : Instr), decode w = .ok i → encode i = w

/-- 30_encoding.md R82: legal words are those that match exactly one row; rows do not overlap; the row is the
command's, and its operand is the row's bits. -/
def Obligations.LegalWordMatchesExactlyOneRow : Prop :=
  ∀ w : Word,
    ((∃ i, decode w = .ok i) ↔ ∃! r, r ∈ opcodeMap ∧ r.matchesWord w = true) ∧
    (∀ r ∈ opcodeMap, ∀ q ∈ opcodeMap, r.matchesWord w = true → q.matchesWord w = true → r = q) ∧
    (∀ i, decode w = .ok i → ∀ r ∈ opcodeMap, r.matchesWord w = true → r.mnemonic = i.mnemonic) ∧
    (∀ size, decode w = .ok (.draw size) → size = w.extractLsb' 0 8) ∧
    (∀ f, decode w = .ok (.ftest f) ∨ decode w = .ok (.fclr f) → f.index.val = (w.extractLsb' 16 3).toNat) ∧
    (∀ v, decode w = .ok (.digits v) → v = w.extractLsb' 0 16)

/-- 30_encoding.md R83, field by field, and the fault such a word raises (60_exceptions.md R232), of the write to CMD and
of HOST's access itself (20_memory.md R64). -/
def Obligations.IllegalWordsRaiseIllegal : Prop :=
  ∀ w : Word,
    ((∃ r, decode w = .error r) ↔
      (w.extractLsb' 24 8 = 0x00 ∨ 0x09 ≤ (w.extractLsb' 24 8).toNat ∨
       ((w.extractLsb' 24 8 = 0x01 ∨ w.extractLsb' 24 8 = 0x02 ∨ w.extractLsb' 24 8 = 0x07 ∨
          w.extractLsb' 24 8 = 0x08) ∧ w.extractLsb' 0 24 ≠ 0) ∨
       (w.extractLsb' 24 8 = 0x03 ∧ w.extractLsb' 8 16 ≠ 0) ∨
       ((w.extractLsb' 24 8 = 0x04 ∨ w.extractLsb' 24 8 = 0x05) ∧
          (w.extractLsb' 19 5 ≠ 0 ∨ w.extractLsb' 0 16 ≠ 0)) ∨
       (w.extractLsb' 24 8 = 0x06 ∧ w.extractLsb' 16 8 ≠ 0))) ∧
    (∀ s : State, (∃ r, decode w = .error r) → s.ctl ≠ .halted →
      writeCmd w s = .next (haltedWith s 1) ∧
      (s.hostStuck = false → act (.hostWrite 0x0 4 w) s = .next (haltedWith s 1)))

/-- 30_encoding.md R82, 95_test_vectors.md T22: words written out from the encoding, one of each row, and the
all-zero word. -/
def Obligations.SampleWordsDecode : Prop :=
  decode 0x01000000 = .ok .seed ∧ decode 0x02000000 = .ok .advance ∧ decode 0x030000FF = .ok (.draw 255) ∧
  decode 0x04010000 = .ok (.ftest .confirm) ∧ decode 0x05020000 = .ok (.fclr .timer) ∧
  decode 0x060004B4 = .ok (.digits 1204) ∧ decode 0x07000000 = .ok .runguess ∧ decode 0x08000000 = .ok .runseq ∧
  decode 0x00000000 = .error .undefinedOp

/-- 30_encoding.md R86: the two pseudo-commands; every other line is one command. With it, of R85, the word of every line,
`(OP << 24) | (f << 16) | imm`, with the operand ranges and the flag names' numbers (10_state.md R31); a line out of range has
no word. -/
def Obligations.LinesAssembleToCommandWords : Prop :=
  (∀ size : Nat, size < 256 →
    (AsmLine.next size).assemble = some [encode .advance, encode (.draw (BitVec.ofNat 8 size))]) ∧
  (∀ f : FlagRef, (AsmLine.ack f).assemble = (AsmLine.fclr f).assemble) ∧
  (∀ l : AsmLine, (∀ size, l ≠ .next size) → l.expand.length = 1) ∧
  (AsmLine.seed.assemble = some [0x01000000] ∧ AsmLine.advance.assemble = some [0x02000000] ∧
    AsmLine.runguess.assemble = some [0x07000000] ∧ AsmLine.runseq.assemble = some [0x08000000]) ∧
  (∀ size : Nat, (AsmLine.draw size).assemble =
    if size < 256 then some [BitVec.ofNat 32 (0x03 * 2 ^ 24 + size)] else none) ∧
  (∀ size : Nat, (AsmLine.next size).assemble =
    if size < 256 then some [0x02000000, BitVec.ofNat 32 (0x03 * 2 ^ 24 + size)] else none) ∧
  (∀ v : Nat, (AsmLine.digits v).assemble =
    if v < 65536 then some [BitVec.ofNat 32 (0x06 * 2 ^ 24 + v)] else none) ∧
  (∀ n : Nat,
    (AsmLine.ftest (.number n)).assemble =
      (if n < 8 then some [BitVec.ofNat 32 (0x04 * 2 ^ 24 + n * 2 ^ 16)] else none) ∧
    (AsmLine.fclr (.number n)).assemble =
      (if n < 8 then some [BitVec.ofNat 32 (0x05 * 2 ^ 24 + n * 2 ^ 16)] else none)) ∧
  (∀ f : Flag,
    (AsmLine.ftest (.name f)).assemble = some [BitVec.ofNat 32 (0x04 * 2 ^ 24 + f.index.val * 2 ^ 16)] ∧
    (AsmLine.fclr (.name f)).assemble = some [BitVec.ofNat 32 (0x05 * 2 ^ 24 + f.index.val * 2 ^ 16)]) ∧
  [Flag.exit, .confirm, .timer, .btn0, .btn1, .btn2, .btn3, .btn4].map (fun f => f.index.val) = [0, 1, 2, 3, 4, 5, 6, 7]

/-! ## The step -/

/-- 10_state.md R20, 20_memory.md R67: the step is the atomic step of the agent the agenda names next; when it names none,
of the free action, whatever that is. The agenda and the free action are the model's (log 1). And ENGINE's atomic step is
engineStep in every control state (10_state.md R22), which is the step under the implementation's capture policy
(00_scope.md R6); in IDLE and HALTED, where ENGINE has none, its turn passes (log 6). -/
def Obligations.StepIsTheNextAgentsStep : Prop :=
  (∀ (s : State) (a : Action) (rest : List Action), s.agenda = a :: rest → step s = act a { s with agenda := rest }) ∧
  (∀ s : State, s.agenda = [] → step s = act (Config.freeAction s.draws) { s with draws := s.draws + 1 }) ∧
  (∀ (s : State) (inp : Inputs), act (.engine inp) s = .next (engineStep inp s) ∧
    engineStep inp s = engineStepUnder Config.capturePolicy inp s) ∧
  (∀ (s : State) (inp : Inputs), s.ctl = .idle ∨ s.ctl = .halted → engineStep inp s = s)

/-- 20_memory.md R64, R66: when the word HOST writes to CMD decodes to a command, the step is exec of that command, after
the write has left the agenda. -/
def Obligations.StepRunsDecodedCommand : Prop :=
  ∀ (s : State) (w : Word) (i : Instr) (rest : List Action),
    s.agenda = .hostWrite 0x0 4 w :: rest → s.hostStuck = false → decode w = .ok i → i.wellFormed = true →
    step s = exec i { s with agenda := rest }

/-- The word placed by withFetchWord is the next command run, whatever the state and the command (20_memory.md R64,
log 2). -/
def Obligations.PlacedCommandRunsNext : Prop :=
  ∀ (s : State) (i : Instr),
    step (s.withFetchWord 32 (encode i).toNat) = exec i { s with hostStuck := false }

/-- No step of the system stops the model: every action in every state has a next state. That a disabled agent's action
changes nothing is the model's choice (logs 6 and 14). -/
def Obligations.EveryStepHasNextState : Prop :=
  ∀ s : State, ∃ t, step s = .next t

/-! ## Acceptance and faults (spec/60_exceptions.md) -/

/-- 60_exceptions.md R230, R233: the parts of a command's acceptance, in order: ignored in HALTED; ILLEGAL; BUSY; the
command's own rule. HOST's 32-bit write at offset 0x0 is that acceptance, whatever the word (20_memory.md R64). -/
def Obligations.CommandAcceptanceOrder : Prop :=
  ∀ (w : Word) (s : State),
    (s.hostStuck = false → act (.hostWrite 0x0 4 w) s = writeCmd w s) ∧
    (s.ctl = .halted → writeCmd w s = .next s) ∧
    (s.ctl ≠ .halted → (∀ i, decode w ≠ .ok i) → writeCmd w s = .next (haltedWith s 1)) ∧
    (∀ i, s.ctl ≠ .halted → s.ctl ≠ .idle → decode w = .ok i →
      writeCmd w s = .next (haltedWith s 2) ∧ exec i s = .next (haltedWith s 2)) ∧
    (∀ i, s.ctl = .idle → decode w = .ok i → writeCmd w s = exec i s)

/-- 60_exceptions.md R234: which commands raise UNSEEDED, and which never do. -/
def Obligations.UnseededCommandsFault : Prop :=
  ∀ s : State, s.ctl = .idle →
    (s.seeded = false →
      exec .advance s = .next (haltedWith s 3) ∧ (∀ size, exec (.draw size) s = .next (haltedWith s 3)) ∧
      exec .runguess s = .next (haltedWith s 3) ∧ exec .runseq s = .next (haltedWith s 3)) ∧
    (exec .seed s ≠ .next (haltedWith s 3) ∧ (∀ f, exec (.ftest f) s ≠ .next (haltedWith s 3)) ∧
      (∀ f, exec (.fclr f) s ≠ .next (haltedWith s 3)) ∧ (∀ v, exec (.digits v) s ≠ .next (haltedWith s 3)))

/-- 60_exceptions.md R231: whichever step enters HALTED changes FAULT, FCAUSE and `ctl` and nothing else, and STATUS then
reads BUSY 0, FAULT 1 and the cause. -/
def Obligations.FaultEntryChangesNothingElse : Prop :=
  ∀ (a : Action) (s t : State), s.ctl ≠ .halted → act a s = .next t → t.ctl = .halted →
    ∃ c : BitVec 4, 1 ≤ c.toNat ∧ c.toNat ≤ 6 ∧ t = haltedWith s c ∧
      t.status.getLsbD 0 = false ∧ t.status.getLsbD 2 = true ∧ t.status.extractLsb' 4 4 = c

/-- 60_exceptions.md R238: ENGINE steps never fault. -/
def Obligations.EngineNeverFaults : Prop :=
  ∀ (inp : Inputs) (s : State),
    ((engineStep inp s).ctl = .halted ↔ s.ctl = .halted) ∧ (engineStep inp s).fault = s.fault ∧
    (engineStep inp s).fcause = s.fcause

/-- 60_exceptions.md R240: in HALTED a CMD write changes nothing, ENGINE does nothing, reads answer, SRC and TIMER still set
their flags, and no step but reset changes anything else or leaves HALTED. -/
def Obligations.HaltedUntilReset : Prop :=
  ∀ s : State, s.ctl = .halted →
    (∀ i, exec i s = .next s) ∧
    (∀ w, act (.hostWrite 0x0 4 w) s = .next s) ∧
    (∀ inp, act (.engine inp) s = .next s) ∧
    (s.hostStuck = false → act (.hostRead 0x4 4) s = .next { s with rdata := some (s.result.setWidth 32) } ∧
      act (.hostRead 0x8 4) s = .next { s with rdata := some s.status }) ∧
    (∀ f, ∃ t, act (.src f) s = .next t ∧ t.flag (sourceFlag f) = true) ∧
    (s.tarmed = true → ∃ t, act .timer s = .next t ∧ t.flag .timer = true) ∧
    (∀ a t, act a s = .next t → (∀ b, a ≠ .reset b) →
      t = { s with flags := t.flags, tarmed := t.tarmed, rdata := t.rdata, hostStuck := t.hostStuck })

/-! ## The commands -/

/-- 40_prng.md R101: SEED starts seeding once; later it faults RESEED; while seeding it faults BUSY. -/
def Obligations.SeedStartsSeeding : Prop :=
  (∀ s : State, s.ctl = .idle → s.seeded = false → exec .seed s = .next { s with ctl := .seeding 0 }) ∧
  (∀ s : State, s.ctl = .idle → s.seeded = true → exec .seed s = .next (haltedWith s 4)) ∧
  (∀ (s : State) (i : Fin 32), s.ctl = .seeding i → exec .seed s = .next (haltedWith s 2)) ∧
  (∃ t, exec .seed State.reset = .next t ∧ t.ctl = .seeding 0 ∧ t.status = 0x00000001) ∧
  encode .seed = 0x01000000

/-- 40_prng.md R104: ADVANCE replaces S by mix(S) and changes nothing else; UNSEEDED before seeding; a zero S stays 0. -/
def Obligations.AdvanceAppliesMix : Prop :=
  (∀ s : State, s.ctl = .idle → s.seeded = true → exec .advance s = .next { s with prng := mix s.prng }) ∧
  (∀ s : State, s.ctl = .idle → s.seeded = false → exec .advance s = .next (haltedWith s 3)) ∧
  mix 0 = 0 ∧ mix 0x12345678 = 0xF8DF74C1 ∧ encode .advance = 0x02000000

/-- 40_prng.md R107, R108: DRAW writes S mod size to RESULT and changes nothing else; its two faults in order. -/
def Obligations.DrawReturnsRemainder : Prop :=
  ∀ (s : State) (size : Byte), s.ctl = .idle →
    encode (.draw size) = 0x03000000 ||| size.setWidth 32 ∧
    (s.seeded = true → size ≠ 0 → ∃ r : Byte, exec (.draw size) s = .next { s with result := r } ∧
      r.toNat = s.prng.toNat % size.toNat ∧ r.toNat < size.toNat) ∧
    (s.seeded = true → exec (.draw 0) s = .next (haltedWith s 5)) ∧
    (s.seeded = false → exec (.draw size) s = .next (haltedWith s 3))

/-- 41_event_flags.md R135: FTEST copies the flag to RESULT and changes nothing else. The last clause is the spec's own
inference there ('FTEST of TIMER while ctl == IDLE returns 0 in every execution reachable from reset'), under the timer
invariant. -/
def Obligations.FtestReadsFlag : Prop :=
  (∀ f : Flag, encode (.ftest f) = 0x04000000 ||| (BitVec.ofNat 32 f.index.val <<< 16)) ∧
  (∀ (s : State) (f : Flag), s.ctl = .idle →
    exec (.ftest f) s = .next { s with result := if s.flag f then 1 else 0 }) ∧
  (∀ s : State, s.ctl = .idle → TimerInv s → exec (.ftest .timer) s = .next { s with result := 0 })

/-- 41_event_flags.md R136: FCLR clears its flag, leaves the other seven, and changes nothing else; an event that arrives
after it is kept. -/
def Obligations.FclrClearsFlag : Prop :=
  ∀ (s : State) (f : Flag), s.ctl = .idle →
    encode (.fclr f) = 0x05000000 ||| (BitVec.ofNat 32 f.index.val <<< 16) ∧
    ∃ t, exec (.fclr f) s = .next t ∧ t.flag f = false ∧ (∀ g, g ≠ f → t.flag g = s.flag g) ∧
      t = { s with flags := t.flags } ∧ (∀ a, IsSetStep a f t → ∃ u, act a t = .next u ∧ u.flag f = true)

/-- 42_guess_number.md R163: DIGITS appends the value's digits to the trace and changes nothing else, up to 9999; above
it faults DIGIT_RANGE. -/
def Obligations.DigitsEmitsOrFaults : Prop :=
  ∀ (s : State) (v : BitVec 16), s.ctl = .idle →
    encode (.digits v) = 0x06000000 ||| v.setWidth 32 ∧ digitsOf 1204 = [1, 2, 0, 4] ∧
    (v.toNat ≤ 9999 → exec (.digits v) s =
      .next { s with trace := s.trace ++ (digitsOf v).map fun d => Event.disp (.digit d) }) ∧
    (9999 < v.toNat → exec (.digits v) s = .next (haltedWith s 6))

/-- 42_guess_number.md R160 to R162, with the spec's own inferences there (the number of digits, reading them back): each digit is decimal, read most significant first they give the value back, there is
no leading zero, and their number is 1, 2, 3 or 4 by the value's size (so 0 gives one digit). -/
def Obligations.DigitsReconstructValue : Prop :=
  ∀ v : BitVec 16, v.toNat ≤ 9999 →
    (digitsOf v).foldl (fun acc d => 10 * acc + d.toNat) 0 = v.toNat ∧
    (∀ d ∈ digitsOf v, d.toNat ≤ 9) ∧
    ((digitsOf v).head? = some 0 → v = 0) ∧
    (digitsOf v).length =
      if v.toNat ≤ 9 then 1 else if v.toNat ≤ 99 then 2 else if v.toNat ≤ 999 then 3 else 4

/-- 42_guess_number.md R170, 43_sequence_memory.md R190: RUNGUESS and RUNSEQ start their games and change only `ctl`;
UNSEEDED before seeding. -/
def Obligations.GameCommandsStartGames : Prop :=
  ∀ s : State, s.ctl = .idle →
    (s.seeded = true → exec .runguess s = .next { s with ctl := .gSetup } ∧
      exec .runseq s = .next { s with ctl := .qEntry }) ∧
    (s.seeded = false → exec .runguess s = .next (haltedWith s 3) ∧ exec .runseq s = .next (haltedWith s 3))

/-! ## PRNG -/

/-- 40_prng.md R103, in plain arithmetic on naturals, with its example. -/
def Obligations.MixIsXorShiftMultiplyXorShift : Prop :=
  (∀ s : Word,
    let a := s.toNat ^^^ (s.toNat / 2 ^ 13)
    let b := (a * 0x85EBCA6B) % 2 ^ 32
    (mix s).toNat = b ^^^ (b / 2 ^ 16)) ∧
  mix 0x00000001 = 0x85EB4F80

/-- 40_prng.md section 2, the spec's own inferences from the mix step: zero is fixed, mix is a bijection, so every state recurs, and the top 16 bits are those of the
product. -/
def Obligations.MixIsBijective : Prop :=
  mix 0 = 0 ∧ Function.Bijective mix ∧ (∀ s, mix s = 0 → s = 0) ∧ (∀ s, ∃ n, 0 < n ∧ mix^[n] s = s) ∧
  (∀ s, (mix s).extractLsb' 16 16 = ((s ^^^ (s >>> 13)) * 0x85EBCA6B#32).extractLsb' 16 16)

/-- 40_prng.md R102: one seeding step writes exactly bit i and goes on to the next; the last one sets SEEDED and returns to
IDLE. Then the spec's own inference there ('After the 32 steps, S = sum over i of (b_i << i)'): thirty-two engine steps from SEEDING(0) build the seed, sample i in bit i, with nothing else changed. -/
def Obligations.SeedingBuildsSeedFromSamples : Prop :=
  (∀ (s : State) (i : Fin 32) (inp : Inputs), s.ctl = .seeding i →
    ∃ p : Word, (∀ j : Nat, j < 32 → p.getLsbD j = if j = i.val then inp.noise else s.prng.getLsbD j) ∧
      (∀ h : i.val + 1 < 32, engineStep inp s = { s with prng := p, ctl := .seeding ⟨i.val + 1, h⟩ }) ∧
      (i.val = 31 → engineStep inp s = { s with prng := p, seeded := true, ctl := .idle })) ∧
  (∀ (s : State) (ans : Fin 32 → Inputs) (rest : List Action),
    s.ctl = .seeding 0 → s.agenda = (List.finRange 32).map (fun i => Action.engine (ans i)) ++ rest →
    ∃ p : Word, (∀ i : Fin 32, p.getLsbD i.val = (ans i).noise) ∧
      Sys2Proof.core.run 32 s = .next { s with prng := p, seeded := true, ctl := .idle, agenda := rest })

/-- 40_prng.md R106, 10_state.md R27: the only steps that change S are the seeding steps, the two drawing states, ADVANCE,
and reset. -/
def Obligations.PrngChangesOnlyAsStated : Prop :=
  ∀ (a : Action) (s t : State), act a s = .next t → t.prng ≠ s.prng →
    (∃ inp, a = .engine inp ∧ ((∃ i, s.ctl = .seeding i) ∨ s.ctl = .gSetup ∨ s.ctl = .qPresent)) ∨
    (∃ w, a = .hostWrite 0x0 4 w ∧ decode w = .ok .advance ∧ s.ctl = .idle ∧ s.seeded = true) ∨
    (∃ b, a = .reset b)

/-! ## Flags and waits -/

/-- 10_state.md R23, R24, 41_event_flags.md R131, R132: a source's step, in every control state, sets its flag and nothing
else, and does nothing to a flag already set; TIMER's step sets its flag and disarms. -/
def Obligations.InterruptStepsSetTheirFlag : Prop :=
  ∀ s : State,
    (∀ f : Source, ∃ t, act (.src f) s = .next t ∧ t.flag (sourceFlag f) = true ∧
      (∀ g, g ≠ sourceFlag f → t.flag g = s.flag g) ∧ t = { s with flags := t.flags } ∧
      (s.flag (sourceFlag f) = true → t = s)) ∧
    (s.tarmed = true → ∃ t, act .timer s = .next t ∧ t.flag .timer = true ∧ t.tarmed = false ∧
      (∀ g, g ≠ .timer → t.flag g = s.flag g) ∧ t = { s with flags := t.flags, tarmed := false })

/-- 41_event_flags.md R133, which the spec infers from its table of writers: a flag rises only by its own writer's step. -/
def Obligations.FlagHasSingleWriter : Prop :=
  ∀ (a : Action) (s t : State) (f : Flag), act a s = .next t → s.flag f = false → t.flag f = true → IsSetStep a f s

/-- 10_state.md R36, 41_event_flags.md R138: ENGINE neither reads nor writes a flag other than CONFIRM and TIMER: changing
it before the step or after it is the same. -/
def Obligations.EngineIgnoresOtherFlags : Prop :=
  ∀ (inp : Inputs) (s : State) (f : Flag) (b : Bool), f ≠ .confirm → f ≠ .timer →
    engineStep inp (s.putFlag f b) = (engineStep inp s).putFlag f b

/-- 41_event_flags.md R137: a set between an FTEST that returned 1 and the FCLR is lost; a set after the FCLR is kept; a set
after an FTEST that returned 0 is seen by the next one. -/
def Obligations.SetBetweenTestAndClearIsLost : Prop :=
  ∀ (s : State) (f : Flag) (a : Action) (rest : List Action),
    s.ctl = .idle → s.hostStuck = false → IsSetStep a f s →
    (s.flag f = true → s.agenda = [command (.ftest f), a, command (.fclr f)] ++ rest →
      ∃ t, Sys2Proof.core.run 3 s = .next t ∧ t.result = 1 ∧ t.flag f = false) ∧
    (s.agenda = [command (.fclr f), a] ++ rest →
      ∃ t, Sys2Proof.core.run 2 s = .next t ∧ t.flag f = true) ∧
    (s.flag f = false → s.agenda = [command (.ftest f), a, command (.ftest f)] ++ rest →
      ∃ t u, Sys2Proof.core.run 1 s = .next t ∧ t.result = 0 ∧ Sys2Proof.core.run 3 s = .next u ∧ u.result = 1)

/-- 41_event_flags.md R140, 10_state.md R24: a waiting engine clears TIMER's flag and goes on when it is set, and otherwise
spins; so an armed wait ends as soon as TIMER and then ENGINE step, with the arming and the event used up. -/
def Obligations.ArmedWaitEndsAfterTimer : Prop :=
  ∀ (s : State) (n : WaitTarget) (inp : Inputs), s.ctl = .wait n →
    (s.flag .timer = true → ∃ t, engineStep inp s = t ∧ t.flag .timer = false ∧
      (∀ g, g ≠ .timer → t.flag g = s.flag g) ∧ t = { s with flags := t.flags, ctl := waitTargetCtl n }) ∧
    (s.flag .timer = false → engineStep inp s = s) ∧
    (∀ rest, s.tarmed = true → s.agenda = .timer :: .engine inp :: rest →
      ∃ t, Sys2Proof.core.run 2 s = .next t ∧ t.flag .timer = false ∧ (∀ g, g ≠ .timer → t.flag g = s.flag g) ∧
        t = { s with flags := t.flags, tarmed := false, ctl := waitTargetCtl n, agenda := rest })

/-- 41_event_flags.md R142: the detector under each policy, and the default policy. -/
def Obligations.DetectorNamesLowestLane : Prop :=
  Config.capturePolicy = .pressNew ∧
  ∀ (policy : CapturePolicy) (base cur : BitVec 4),
    (detect policy base cur).2 = cur ∧
    (cur = base → (detect policy base cur).1 = none) ∧
    (∀ l : Lane, cur ≠ base →
      ((detect .pressNew base cur).1 = some l ↔
        (cur.getLsbD l.val && !base.getLsbD l.val) = true ∧
        ∀ m : Lane, m < l → (cur.getLsbD m.val && !base.getLsbD m.val) = false) ∧
      ((detect .anyChange base cur).1 = some l ↔
        (cur.getLsbD l.val != base.getLsbD l.val) = true ∧
        ∀ m : Lane, m < l → (cur.getLsbD m.val != base.getLsbD m.val) = false) ∧
      ((detect .pressLevel base cur).1 = some l ↔
        (∃ k : Lane, (cur.getLsbD k.val && !base.getLsbD k.val) = true) ∧ cur.getLsbD l.val = true ∧
        ∀ m : Lane, m < l → cur.getLsbD m.val = false))

/-! ## Guess-The-Number -/

/-- 42_guess_number.md R171. -/
def Obligations.GuessSetupDrawsTarget : Prop :=
  ∀ (s : State) (inp : Inputs), s.ctl = .gSetup →
    ∃ t : Byte, t.toNat = (mix s.prng).toNat % 255 ∧
      engineStep inp s = { s with prng := mix s.prng, target := t, ctl := .gAwait, trace := s.trace ++ [.extAll, .disp .prompt] }

/-- 42_guess_number.md R172: the switches are sampled on every step, and the round goes on with the one that sees
CONFIRM. -/
def Obligations.GuessAwaitCapturesOnConfirm : Prop :=
  ∀ (s : State) (inp : Inputs), s.ctl = .gAwait →
    (s.flag .confirm = true → ∃ t, engineStep inp s = t ∧ t.flag .confirm = false ∧
      (∀ g, g ≠ .confirm → t.flag g = s.flag g) ∧
      t = { s with capt := inp.sw, flags := t.flags, tarmed := true, ctl := .wait .gShow,
                   trace := s.trace ++ [.tstart .check] }) ∧
    (s.flag .confirm = false → engineStep inp s = { s with capt := inp.sw })

/-- 42_guess_number.md R174: the two outcomes, their records in order, and the wait that follows. -/
def Obligations.GuessShowJudgesCapture : Prop :=
  ∀ (s : State) (inp : Inputs), s.ctl = .gShow →
    (s.capt = s.target → engineStep inp s =
      { s with outc := true, tarmed := true, ctl := .wait .gEnd, trace := s.trace ++ [.disp .win, .tstart .result] }) ∧
    (s.capt ≠ s.target → engineStep inp s =
      { s with outc := false, tarmed := true, ctl := .wait .gEnd,
               trace := s.trace ++ ([.disp .lose] ++ ((digitsOf (s.capt.setWidth 16)).map fun d => Event.disp (.digit d)) ++
                 [.disp (.value s.target), .tstart .result]) })

/-- 42_guess_number.md R178, 43_sequence_memory.md R203: a game ends by writing its outcome to RESULT and returning to
IDLE, and changes nothing else. -/
def Obligations.GameEndReturnsOutcome : Prop :=
  ∀ (s : State) (inp : Inputs), s.ctl = .gEnd ∨ s.ctl = .qEnd →
    engineStep inp s = { s with result := if s.outc then 1 else 0, ctl := .idle }

/-- The spec's own inference in 42_guess_number.md R179, on one schedule: a whole round, from HOST's RUNGUESS to IDLE, for every S and every switch vector: the events
it emits, the RESULT, and S advanced once. -/
def Obligations.GuessRoundOutput : Prop :=
  ∀ (s : State) (i1 i2 i3 i4 i5 i6 : Inputs) (rest : List Action),
    s.ctl = .idle → s.seeded = true → s.hostStuck = false →
    s.agenda = [command .runguess, .engine i1, .src .confirm, .engine i2, .timer, .engine i3, .engine i4, .timer,
      .engine i5, .engine i6] ++ rest →
    ∃ t, Sys2Proof.core.run 10 s = .next t ∧ t.ctl = .idle ∧ t.agenda = rest ∧ t.prng = mix s.prng ∧
      t.target.toNat = (mix s.prng).toNat % 255 ∧ t.capt = i2.sw ∧
      t.result = (if i2.sw = t.target then 1 else 0) ∧
      t.trace = s.trace ++ [.extAll, .disp .prompt, .tstart .check] ++
        (if i2.sw = t.target then [Event.disp .win]
         else [Event.disp .lose] ++ ((digitsOf (i2.sw.setWidth 16)).map fun d => Event.disp (.digit d)) ++
           [Event.disp (.value t.target)]) ++ [.tstart .result]

/-- The spec's own inference in 42_guess_number.md R175: the input 255 always loses, in every state the round's invariant admits. -/
def Obligations.Input255AlwaysLoses : Prop :=
  ∀ (s : State) (inp : Inputs), GuessInv s → s.ctl = .gShow → s.capt = 255 →
    (engineStep inp s).outc = false ∧ Event.disp .lose ∈ (engineStep inp s).trace.drop s.trace.length

/-! ## Sequence-Memory -/

/-- 43_sequence_memory.md R191. -/
def Obligations.SequenceEntryClearsSession : Prop :=
  ∀ (s : State) (inp : Inputs), s.ctl = .qEntry →
    ∃ t, engineStep inp s = t ∧ (∀ l, t.tseq.get l = 0 ∧ t.cseq.get l = 0) ∧
      t = { s with tseq := t.tseq, cseq := t.cseq, lives := 3, stepNo := 0, pos := 0, ctl := .qPresent,
                   trace := s.trace ++ [.extAll, .disp .lives, .disp (.digit 3)] }

/-- 43_sequence_memory.md R192: one presentation step. -/
def Obligations.PresentStepShowsDrawnLane : Prop :=
  ∀ (s : State) (inp : Inputs), s.ctl = .qPresent →
    ∃ t, engineStep inp s = t ∧ t.curl.val = (mix s.prng).toNat % 4 ∧
      t.tseq.get t.curl = s.tseq.get t.curl ||| (1#8 <<< s.stepNo.toNat) ∧
      (∀ l, l ≠ t.curl → t.tseq.get l = s.tseq.get l) ∧
      t = { s with prng := mix s.prng, tseq := t.tseq, curl := t.curl, tarmed := true, ctl := .wait .qPresentOff,
                   trace := s.trace ++ [.ind (Config.laneInd t.curl) true, .tstart .presentOn] }

/-- 43_sequence_memory.md R193: the lit indicator goes off, the step is counted, the gap follows every step. -/
def Obligations.PresentOffCountsStep : Prop :=
  ∀ (s : State) (inp : Inputs), s.ctl = .qPresentOff →
    engineStep inp s =
      { s with stepNo := s.stepNo + 1, tarmed := true,
               ctl := if s.stepNo + 1 = 6 then .wait .qCapInit else .wait .qPresent,
               trace := s.trace ++ [.ind (Config.laneInd s.curl) false, .tstart .presentGap] }

/-- 43_sequence_memory.md R192, R193 and the spec's own inference in R200 ('next_draw runs exactly 6 times per session, all in
the presentation'), on one schedule: the whole presentation: six draws, one per step, and TSEQ records which lane
each step showed. -/
def Obligations.PresentationRecordsSixDraws : Prop :=
  ∀ (s : State) (rest : List Action),
    s.ctl = .qPresent → s.stepNo = 0 → (∀ l, s.tseq.get l = 0) →
    s.agenda = (List.replicate 6 presentTurn).flatten ++ rest →
    ∃ t, Sys2Proof.core.run 36 s = .next t ∧ t.ctl = .qCapInit ∧ t.stepNo = 6 ∧ t.agenda = rest ∧
      t.prng = mix^[6] s.prng ∧
      (∀ (l : Lane) (k : Nat), k < 6 →
        ((t.tseq.get l).getLsbD k = true ↔ (mix^[k + 1] s.prng).toNat % 4 = l.val)) ∧
      t.cseq = s.cseq ∧ t.lives = s.lives ∧ t.pos = s.pos

/-- 43_sequence_memory.md R194, R195: the baseline of an attempt is the vector sampled; then, for every capture policy, an
event is shown and recorded at the current position, which advances; without one only the baseline moves; six positions
end the capture. -/
def Obligations.CaptureRecordsEvents : Prop :=
  ∀ (policy : CapturePolicy) (s : State) (inp : Inputs),
    (s.ctl = .qCapInit → engineStepUnder policy inp s = { s with base := inp.dir, ctl := .qCapture }) ∧
    (∀ l, s.ctl = .qCapture → (detect policy s.base inp.dir).1 = some l →
      ∃ t, engineStepUnder policy inp s = t ∧
        t.cseq.get l = s.cseq.get l ||| (1#8 <<< s.pos.toNat) ∧ (∀ m, m ≠ l → t.cseq.get m = s.cseq.get m) ∧
        t = { s with base := inp.dir, cseq := t.cseq, pos := s.pos + 1,
                     ctl := if s.pos + 1 = 6 then .qVerify else .qCapture,
                     trace := s.trace ++ [.ind (Config.laneInd l) true] }) ∧
    (s.ctl = .qCapture → (detect policy s.base inp.dir).1 = none →
      engineStepUnder policy inp s =
        { s with base := inp.dir, ctl := if s.pos = 6 then .qVerify else .qCapture })

/-- 43_sequence_memory.md R197: win, retry and loss; the premise on LIVES is what the rule itself says of it here. -/
def Obligations.VerifyJudgesAttempt : Prop :=
  ∀ (s : State) (inp : Inputs), s.ctl = .qVerify →
    ((∀ l, s.tseq.get l = s.cseq.get l) → engineStep inp s =
      { s with outc := true, tarmed := true, ctl := .wait .qEnd,
               trace := s.trace ++ [.extAll, .disp .win, .tstart .result] }) ∧
    (¬(∀ l, s.tseq.get l = s.cseq.get l) → HasLives s →
      ∃ t, engineStep inp s = t ∧ t.lives.toNat + 1 = s.lives.toNat ∧ (∀ l, t.cseq.get l = 0) ∧
        (2 ≤ s.lives.toNat → t =
          { s with lives := t.lives, cseq := t.cseq, pos := 0, ctl := .qCapInit,
                   trace := s.trace ++ [.extAll, .disp .lives, .disp (.digit (t.lives.setWidth 4))] }) ∧
        (s.lives.toNat = 1 → t =
          { s with lives := t.lives, cseq := t.cseq, pos := 0, outc := false, tarmed := true, ctl := .wait .qEnd,
                   trace := s.trace ++ [.extAll, .disp .lives, .disp (.digit 0), .disp .lose, .tstart .result] }))

/-- The spec's own inferences in 43_sequence_memory.md R196 and R198: where both arrays record the six positions, the win test holds exactly when every
position was captured on the lane it was shown on. -/
def Obligations.WinMeansSameOrderedSequence : Prop :=
  ∀ x y : Vector Byte 4, RecordsUpTo x 6 → RecordsUpTo y 6 →
    (lanesEqual x y = true ↔ ∀ k : Nat, k < 6 → laneOf x k = laneOf y k) ∧
    (∀ k : Nat, k < 6 → ∃ l, laneOf x k = some l)

/-! ## HOST's window (spec/20_memory.md) -/

/-- 20_memory.md R63: what each read returns; no read changes anything of the GIE. -/
def Obligations.ReadsReturnRegisters : Prop :=
  ∀ s : State, s.hostStuck = false →
    act (.hostRead 0x0 4) s = .next { s with rdata := some 0 } ∧
    act (.hostRead 0x4 4) s = .next { s with rdata := some (s.result.setWidth 32) } ∧
    act (.hostRead 0x8 4) s = .next { s with rdata := some s.status }

/-- 20_memory.md R62, R64: writes to RESULT and STATUS do nothing; any access that is not a 32-bit one at 0x0, 0x4 or 0x8
changes no GIE state and leaves HOST without a step, after which HOST's accesses do nothing (the field that says so is
the model's, log 7). -/
def Obligations.OtherAccessesDoNothing : Prop :=
  (∀ (s : State) (v : Word), act (.hostWrite 0x4 4 v) s = .next s ∧ act (.hostWrite 0x8 4 v) s = .next s) ∧
  (∀ (s : State) (off : BitVec 4) (n : Nat) (v : Word),
    ¬(n = 4 ∧ (off = 0x0 ∨ off = 0x4 ∨ off = 0x8)) →
    act (.hostWrite off n v) s = .next { s with hostStuck := true } ∧
    act (.hostRead off n) s = .next { s with hostStuck := true }) ∧
  (∀ (s : State) (a : Action), a.isHost = true → s.hostStuck = true → act a s = .next s)

/-- 20_memory.md R61: HOST's bus addresses. The 16 bytes at GIE_BASE, a multiple of 16, are the window, and a MemRead or
MemWrite there is HOST's access at that offset; an address outside them is none of the GIE's. That an access counts by
its start address is the model's choice (log 10). -/
def Obligations.WindowIsSixteenBytesAtBase : Prop :=
  Config.gieBase % 16 = 0 ∧
  (∀ off : BitVec 4, windowOffset (Config.gieBase + off.toNat) = some off ∧
    (∀ n, memRead (Config.gieBase + off.toNat) n = some (.hostRead off n)) ∧
    (∀ n v, memWrite (Config.gieBase + off.toNat) n v = some (.hostWrite off n v))) ∧
  (∀ addr : Nat, addr < Config.gieBase ∨ Config.gieBase + 16 ≤ addr →
    windowOffset addr = none ∧ (∀ n, memRead addr n = none) ∧ (∀ n v, memWrite addr n v = none)) ∧
  (∀ v, memRead (Config.gieBase + 0x0) 4 = some (.hostRead 0x0 4) ∧ memRead (Config.gieBase + 0x4) 4 = some (.hostRead 0x4 4) ∧
    memRead (Config.gieBase + 0x8) 4 = some (.hostRead 0x8 4) ∧
    memWrite (Config.gieBase + 0x0) 4 v = some (.hostWrite 0x0 4 v))

/-- 10_state.md R32: STATUS, bit by bit. -/
def Obligations.StatusIsComposed : Prop :=
  ∀ s : State,
    (s.status.getLsbD 0 = true ↔ s.ctl ≠ .idle ∧ s.ctl ≠ .halted) ∧ s.status.getLsbD 1 = s.seeded ∧
    s.status.getLsbD 2 = s.fault ∧ s.status.getLsbD 3 = false ∧ s.status.extractLsb' 4 4 = s.fcause ∧
    s.status.extractLsb' 8 24 = 0

/-- 10_state.md R29: RESULT is written only by DRAW, FTEST and the last step of a game, and by reset. -/
def Obligations.ResultHasFourWriters : Prop :=
  ∀ (a : Action) (s t : State), act a s = .next t → t.result ≠ s.result →
    (∃ w i, a = .hostWrite 0x0 4 w ∧ decode w = .ok i ∧ s.ctl = .idle ∧
      ((∃ size, i = .draw size) ∨ ∃ f, i = .ftest f)) ∨
    (∃ inp, a = .engine inp ∧ (s.ctl = .gEnd ∨ s.ctl = .qEnd)) ∨
    (∃ b, a = .reset b)

/-- 10_state.md R40, R28, 00_scope.md R9: until reset the trace is only ever appended to, and SEEDED, once 1, stays 1. -/
def Obligations.TraceAndSeedingLastUntilReset : Prop :=
  ∀ (a : Action) (s t : State), act a s = .next t → (∀ b, a ≠ .reset b) →
    (∃ es, t.trace = s.trace ++ es) ∧ (s.seeded = true → t.seeded = true)

/-- 10_state.md R41: an indicator is on exactly when the last event that is about it turned it on. -/
def Obligations.IndicatorFollowsLastEvent : Prop :=
  ∀ (tr : List Event) (i : BitVec 3),
    (indicator tr i = some true ↔ ∃ pre post, tr = pre ++ .ind i true :: post ∧
      ∀ e ∈ post, e ≠ .extAll ∧ ∀ b, e ≠ .ind i b) ∧
    (indicator tr i = none ↔ ∀ e ∈ tr, e ≠ .extAll ∧ ∀ b, e ≠ .ind i b) ∧
    indicator (tr ++ [.extAll]) i = some false ∧
    (∀ j b, indicator (tr ++ [.ind j b]) i = if j = i then some b else indicator tr i)

/-! ## Reset and the invariants -/

/-- 70_reset_and_hazards.md R260, 10_state.md R45: the platform's reset, from any state, gives the values R45 states. (The
registers R45 leaves unspecified take the model's values, logs 4 and 5, about which nothing is said here.) -/
def Obligations.ResetGivesStatedValues : Prop :=
  ∀ (s : State) (b : Bool), ∃ t, act (.reset b) s = .next t ∧ t.ctl = .idle ∧ t.seeded = false ∧ t.result = 0 ∧
    (∀ f, t.flag f = false) ∧ t.fault = false ∧ t.fcause = 0 ∧ t.tarmed = false ∧ t.trace = [] ∧ t.status = 0

/-- The invariants hold right after reset (10_state.md R45). -/
def Obligations.ResetMeetsInvariants : Prop :=
  FaultInv State.reset ∧ SeedInv State.reset ∧ TimerInv State.reset ∧ GuessInv State.reset ∧ SequenceInv State.reset

/-- 10_state.md R33, 60_exceptions.md R231, R238, R240: FAULT, FCAUSE and HALTED stay in agreement. -/
def Obligations.StepKeepsFaultInvariant : Prop :=
  ∀ s t : State, FaultInv s → step s = .next t → FaultInv t

/-- 40_prng.md R101, R102, 60_exceptions.md R234: seeding only while unseeded, games only when seeded. -/
def Obligations.StepKeepsSeedInvariant : Prop :=
  ∀ s t : State, SeedInv s → step s = .next t → SeedInv t

/-- 10_state.md R34, 41_event_flags.md R135, R139: a TStart never finds TARMED or TIMER's flag set. -/
def Obligations.StepKeepsTimerInvariant : Prop :=
  ∀ s t : State, TimerInv s → step s = .next t → TimerInv t

/-- 42_guess_number.md R171 to R175: TARGET is never 255, and the outcome is the comparison's. -/
def Obligations.StepKeepsGuessInvariant : Prop :=
  ∀ s t : State, GuessInv s → step s = .next t → GuessInv t

/-- 43_sequence_memory.md R191 to R199, 10_state.md R30: every position is recorded in exactly one lane, LIVES stays in
range, the outcome is Win only with TSEQ and CSEQ equal; and with it every step but the platform's reset, whose values
for TSEQ and CSEQ are the model's choice (log 5), keeps bits 7:6 of the lane registers 0. -/
def Obligations.StepKeepsSequenceInvariant : Prop :=
  ∀ s t : State, SequenceInv s → step s = .next t →
    SequenceInv t ∧ ((∀ b, s.nextAction.1 ≠ .reset b) → LaneBitsInv s → LaneBitsInv t)
end

