-- ==== Sys2Proof/Laws/Config.lean ====
section
/-! SUPPORT. What is known of the OPEN parameters, whatever their values (00_scope.md R6). -/

namespace Sys2Proof.Config

/-- The four lanes light four different indicators (92_eei_decisions.md D28). -/
theorem laneInd_injective {a b : Lane} (h : laneInd a = laneInd b) : a = b := by
  unfold laneInd at h
  split at h
  · rename_i hc
    exact hc a b h
  · revert h
    revert a b
    decide

/-- The window's base is a multiple of 16 (20_memory.md R61). -/
theorem gieBase_aligned : gieBase % 16 = 0 := by simp [gieBase]

end Sys2Proof.Config
end

