-- ==== Sys2Proof/Laws/State.lean ====
section
/-! SUPPORT. The update operations of State, field by field: what each changes and what it leaves, all true by rfl, so
that no proof unfolds a record update. Then the flag bank: reading after writing. -/

namespace Sys2Proof.Machine.State

variable (s : State)

/-! ## emit -/

@[simp] theorem emit_ctl (e : Event) : (s.emit e).ctl = s.ctl := rfl
@[simp] theorem emit_prng (e : Event) : (s.emit e).prng = s.prng := rfl
@[simp] theorem emit_seeded (e : Event) : (s.emit e).seeded = s.seeded := rfl
@[simp] theorem emit_result (e : Event) : (s.emit e).result = s.result := rfl
@[simp] theorem emit_flags (e : Event) : (s.emit e).flags = s.flags := rfl
@[simp] theorem emit_fault (e : Event) : (s.emit e).fault = s.fault := rfl
@[simp] theorem emit_fcause (e : Event) : (s.emit e).fcause = s.fcause := rfl
@[simp] theorem emit_tarmed (e : Event) : (s.emit e).tarmed = s.tarmed := rfl
@[simp] theorem emit_target (e : Event) : (s.emit e).target = s.target := rfl
@[simp] theorem emit_capt (e : Event) : (s.emit e).capt = s.capt := rfl
@[simp] theorem emit_tseq (e : Event) : (s.emit e).tseq = s.tseq := rfl
@[simp] theorem emit_cseq (e : Event) : (s.emit e).cseq = s.cseq := rfl
@[simp] theorem emit_lives (e : Event) : (s.emit e).lives = s.lives := rfl
@[simp] theorem emit_stepNo (e : Event) : (s.emit e).stepNo = s.stepNo := rfl
@[simp] theorem emit_curl (e : Event) : (s.emit e).curl = s.curl := rfl
@[simp] theorem emit_pos (e : Event) : (s.emit e).pos = s.pos := rfl
@[simp] theorem emit_base (e : Event) : (s.emit e).base = s.base := rfl
@[simp] theorem emit_outc (e : Event) : (s.emit e).outc = s.outc := rfl
@[simp] theorem emit_trace (e : Event) : (s.emit e).trace = s.trace ++ [e] := rfl
@[simp] theorem emit_hostStuck (e : Event) : (s.emit e).hostStuck = s.hostStuck := rfl
@[simp] theorem emit_rdata (e : Event) : (s.emit e).rdata = s.rdata := rfl
@[simp] theorem emit_agenda (e : Event) : (s.emit e).agenda = s.agenda := rfl
@[simp] theorem emit_draws (e : Event) : (s.emit e).draws = s.draws := rfl
@[simp] theorem emit_flag (e : Event) (g : Flag) : (s.emit e).flag g = s.flag g := rfl

/-! ## emitAll -/

@[simp] theorem emitAll_ctl (es : List Event) : (s.emitAll es).ctl = s.ctl := rfl
@[simp] theorem emitAll_prng (es : List Event) : (s.emitAll es).prng = s.prng := rfl
@[simp] theorem emitAll_seeded (es : List Event) : (s.emitAll es).seeded = s.seeded := rfl
@[simp] theorem emitAll_result (es : List Event) : (s.emitAll es).result = s.result := rfl
@[simp] theorem emitAll_flags (es : List Event) : (s.emitAll es).flags = s.flags := rfl
@[simp] theorem emitAll_fault (es : List Event) : (s.emitAll es).fault = s.fault := rfl
@[simp] theorem emitAll_fcause (es : List Event) : (s.emitAll es).fcause = s.fcause := rfl
@[simp] theorem emitAll_tarmed (es : List Event) : (s.emitAll es).tarmed = s.tarmed := rfl
@[simp] theorem emitAll_target (es : List Event) : (s.emitAll es).target = s.target := rfl
@[simp] theorem emitAll_capt (es : List Event) : (s.emitAll es).capt = s.capt := rfl
@[simp] theorem emitAll_tseq (es : List Event) : (s.emitAll es).tseq = s.tseq := rfl
@[simp] theorem emitAll_cseq (es : List Event) : (s.emitAll es).cseq = s.cseq := rfl
@[simp] theorem emitAll_lives (es : List Event) : (s.emitAll es).lives = s.lives := rfl
@[simp] theorem emitAll_stepNo (es : List Event) : (s.emitAll es).stepNo = s.stepNo := rfl
@[simp] theorem emitAll_curl (es : List Event) : (s.emitAll es).curl = s.curl := rfl
@[simp] theorem emitAll_pos (es : List Event) : (s.emitAll es).pos = s.pos := rfl
@[simp] theorem emitAll_base (es : List Event) : (s.emitAll es).base = s.base := rfl
@[simp] theorem emitAll_outc (es : List Event) : (s.emitAll es).outc = s.outc := rfl
@[simp] theorem emitAll_trace (es : List Event) : (s.emitAll es).trace = s.trace ++ es := rfl
@[simp] theorem emitAll_hostStuck (es : List Event) : (s.emitAll es).hostStuck = s.hostStuck := rfl
@[simp] theorem emitAll_rdata (es : List Event) : (s.emitAll es).rdata = s.rdata := rfl
@[simp] theorem emitAll_agenda (es : List Event) : (s.emitAll es).agenda = s.agenda := rfl
@[simp] theorem emitAll_draws (es : List Event) : (s.emitAll es).draws = s.draws := rfl
@[simp] theorem emitAll_flag (es : List Event) (g : Flag) : (s.emitAll es).flag g = s.flag g := rfl

/-! ## emitDigits -/

@[simp] theorem emitDigits_ctl (v : BitVec 16) : (s.emitDigits v).ctl = s.ctl := rfl
@[simp] theorem emitDigits_prng (v : BitVec 16) : (s.emitDigits v).prng = s.prng := rfl
@[simp] theorem emitDigits_seeded (v : BitVec 16) : (s.emitDigits v).seeded = s.seeded := rfl
@[simp] theorem emitDigits_result (v : BitVec 16) : (s.emitDigits v).result = s.result := rfl
@[simp] theorem emitDigits_flags (v : BitVec 16) : (s.emitDigits v).flags = s.flags := rfl
@[simp] theorem emitDigits_fault (v : BitVec 16) : (s.emitDigits v).fault = s.fault := rfl
@[simp] theorem emitDigits_fcause (v : BitVec 16) : (s.emitDigits v).fcause = s.fcause := rfl
@[simp] theorem emitDigits_tarmed (v : BitVec 16) : (s.emitDigits v).tarmed = s.tarmed := rfl
@[simp] theorem emitDigits_target (v : BitVec 16) : (s.emitDigits v).target = s.target := rfl
@[simp] theorem emitDigits_capt (v : BitVec 16) : (s.emitDigits v).capt = s.capt := rfl
@[simp] theorem emitDigits_tseq (v : BitVec 16) : (s.emitDigits v).tseq = s.tseq := rfl
@[simp] theorem emitDigits_cseq (v : BitVec 16) : (s.emitDigits v).cseq = s.cseq := rfl
@[simp] theorem emitDigits_lives (v : BitVec 16) : (s.emitDigits v).lives = s.lives := rfl
@[simp] theorem emitDigits_stepNo (v : BitVec 16) : (s.emitDigits v).stepNo = s.stepNo := rfl
@[simp] theorem emitDigits_curl (v : BitVec 16) : (s.emitDigits v).curl = s.curl := rfl
@[simp] theorem emitDigits_pos (v : BitVec 16) : (s.emitDigits v).pos = s.pos := rfl
@[simp] theorem emitDigits_base (v : BitVec 16) : (s.emitDigits v).base = s.base := rfl
@[simp] theorem emitDigits_outc (v : BitVec 16) : (s.emitDigits v).outc = s.outc := rfl
@[simp] theorem emitDigits_trace (v : BitVec 16) : (s.emitDigits v).trace = s.trace ++ (digitsOf v).map fun d => Event.disp (.digit d) := rfl
@[simp] theorem emitDigits_hostStuck (v : BitVec 16) : (s.emitDigits v).hostStuck = s.hostStuck := rfl
@[simp] theorem emitDigits_rdata (v : BitVec 16) : (s.emitDigits v).rdata = s.rdata := rfl
@[simp] theorem emitDigits_agenda (v : BitVec 16) : (s.emitDigits v).agenda = s.agenda := rfl
@[simp] theorem emitDigits_draws (v : BitVec 16) : (s.emitDigits v).draws = s.draws := rfl
@[simp] theorem emitDigits_flag (v : BitVec 16) (g : Flag) : (s.emitDigits v).flag g = s.flag g := rfl

/-! ## goto -/

@[simp] theorem goto_ctl (c : Ctl) : (s.goto c).ctl = c := rfl
@[simp] theorem goto_prng (c : Ctl) : (s.goto c).prng = s.prng := rfl
@[simp] theorem goto_seeded (c : Ctl) : (s.goto c).seeded = s.seeded := rfl
@[simp] theorem goto_result (c : Ctl) : (s.goto c).result = s.result := rfl
@[simp] theorem goto_flags (c : Ctl) : (s.goto c).flags = s.flags := rfl
@[simp] theorem goto_fault (c : Ctl) : (s.goto c).fault = s.fault := rfl
@[simp] theorem goto_fcause (c : Ctl) : (s.goto c).fcause = s.fcause := rfl
@[simp] theorem goto_tarmed (c : Ctl) : (s.goto c).tarmed = s.tarmed := rfl
@[simp] theorem goto_target (c : Ctl) : (s.goto c).target = s.target := rfl
@[simp] theorem goto_capt (c : Ctl) : (s.goto c).capt = s.capt := rfl
@[simp] theorem goto_tseq (c : Ctl) : (s.goto c).tseq = s.tseq := rfl
@[simp] theorem goto_cseq (c : Ctl) : (s.goto c).cseq = s.cseq := rfl
@[simp] theorem goto_lives (c : Ctl) : (s.goto c).lives = s.lives := rfl
@[simp] theorem goto_stepNo (c : Ctl) : (s.goto c).stepNo = s.stepNo := rfl
@[simp] theorem goto_curl (c : Ctl) : (s.goto c).curl = s.curl := rfl
@[simp] theorem goto_pos (c : Ctl) : (s.goto c).pos = s.pos := rfl
@[simp] theorem goto_base (c : Ctl) : (s.goto c).base = s.base := rfl
@[simp] theorem goto_outc (c : Ctl) : (s.goto c).outc = s.outc := rfl
@[simp] theorem goto_trace (c : Ctl) : (s.goto c).trace = s.trace := rfl
@[simp] theorem goto_hostStuck (c : Ctl) : (s.goto c).hostStuck = s.hostStuck := rfl
@[simp] theorem goto_rdata (c : Ctl) : (s.goto c).rdata = s.rdata := rfl
@[simp] theorem goto_agenda (c : Ctl) : (s.goto c).agenda = s.agenda := rfl
@[simp] theorem goto_draws (c : Ctl) : (s.goto c).draws = s.draws := rfl
@[simp] theorem goto_flag (c : Ctl) (g : Flag) : (s.goto c).flag g = s.flag g := rfl

/-! ## armWait -/

@[simp] theorem armWait_ctl (d : Duration) (n : WaitTarget) : (s.armWait d n).ctl = .wait n := rfl
@[simp] theorem armWait_prng (d : Duration) (n : WaitTarget) : (s.armWait d n).prng = s.prng := rfl
@[simp] theorem armWait_seeded (d : Duration) (n : WaitTarget) : (s.armWait d n).seeded = s.seeded := rfl
@[simp] theorem armWait_result (d : Duration) (n : WaitTarget) : (s.armWait d n).result = s.result := rfl
@[simp] theorem armWait_flags (d : Duration) (n : WaitTarget) : (s.armWait d n).flags = s.flags := rfl
@[simp] theorem armWait_fault (d : Duration) (n : WaitTarget) : (s.armWait d n).fault = s.fault := rfl
@[simp] theorem armWait_fcause (d : Duration) (n : WaitTarget) : (s.armWait d n).fcause = s.fcause := rfl
@[simp] theorem armWait_tarmed (d : Duration) (n : WaitTarget) : (s.armWait d n).tarmed = true := rfl
@[simp] theorem armWait_target (d : Duration) (n : WaitTarget) : (s.armWait d n).target = s.target := rfl
@[simp] theorem armWait_capt (d : Duration) (n : WaitTarget) : (s.armWait d n).capt = s.capt := rfl
@[simp] theorem armWait_tseq (d : Duration) (n : WaitTarget) : (s.armWait d n).tseq = s.tseq := rfl
@[simp] theorem armWait_cseq (d : Duration) (n : WaitTarget) : (s.armWait d n).cseq = s.cseq := rfl
@[simp] theorem armWait_lives (d : Duration) (n : WaitTarget) : (s.armWait d n).lives = s.lives := rfl
@[simp] theorem armWait_stepNo (d : Duration) (n : WaitTarget) : (s.armWait d n).stepNo = s.stepNo := rfl
@[simp] theorem armWait_curl (d : Duration) (n : WaitTarget) : (s.armWait d n).curl = s.curl := rfl
@[simp] theorem armWait_pos (d : Duration) (n : WaitTarget) : (s.armWait d n).pos = s.pos := rfl
@[simp] theorem armWait_base (d : Duration) (n : WaitTarget) : (s.armWait d n).base = s.base := rfl
@[simp] theorem armWait_outc (d : Duration) (n : WaitTarget) : (s.armWait d n).outc = s.outc := rfl
@[simp] theorem armWait_trace (d : Duration) (n : WaitTarget) : (s.armWait d n).trace = s.trace ++ [.tstart d] := rfl
@[simp] theorem armWait_hostStuck (d : Duration) (n : WaitTarget) : (s.armWait d n).hostStuck = s.hostStuck := rfl
@[simp] theorem armWait_rdata (d : Duration) (n : WaitTarget) : (s.armWait d n).rdata = s.rdata := rfl
@[simp] theorem armWait_agenda (d : Duration) (n : WaitTarget) : (s.armWait d n).agenda = s.agenda := rfl
@[simp] theorem armWait_draws (d : Duration) (n : WaitTarget) : (s.armWait d n).draws = s.draws := rfl
@[simp] theorem armWait_flag (d : Duration) (n : WaitTarget) (g : Flag) : (s.armWait d n).flag g = s.flag g := rfl

/-! ## raise -/

@[simp] theorem raise_ctl (c : FaultCause) : (s.raise c).ctl = .halted := rfl
@[simp] theorem raise_prng (c : FaultCause) : (s.raise c).prng = s.prng := rfl
@[simp] theorem raise_seeded (c : FaultCause) : (s.raise c).seeded = s.seeded := rfl
@[simp] theorem raise_result (c : FaultCause) : (s.raise c).result = s.result := rfl
@[simp] theorem raise_flags (c : FaultCause) : (s.raise c).flags = s.flags := rfl
@[simp] theorem raise_fault (c : FaultCause) : (s.raise c).fault = true := rfl
@[simp] theorem raise_fcause (c : FaultCause) : (s.raise c).fcause = faultCode c := rfl
@[simp] theorem raise_tarmed (c : FaultCause) : (s.raise c).tarmed = s.tarmed := rfl
@[simp] theorem raise_target (c : FaultCause) : (s.raise c).target = s.target := rfl
@[simp] theorem raise_capt (c : FaultCause) : (s.raise c).capt = s.capt := rfl
@[simp] theorem raise_tseq (c : FaultCause) : (s.raise c).tseq = s.tseq := rfl
@[simp] theorem raise_cseq (c : FaultCause) : (s.raise c).cseq = s.cseq := rfl
@[simp] theorem raise_lives (c : FaultCause) : (s.raise c).lives = s.lives := rfl
@[simp] theorem raise_stepNo (c : FaultCause) : (s.raise c).stepNo = s.stepNo := rfl
@[simp] theorem raise_curl (c : FaultCause) : (s.raise c).curl = s.curl := rfl
@[simp] theorem raise_pos (c : FaultCause) : (s.raise c).pos = s.pos := rfl
@[simp] theorem raise_base (c : FaultCause) : (s.raise c).base = s.base := rfl
@[simp] theorem raise_outc (c : FaultCause) : (s.raise c).outc = s.outc := rfl
@[simp] theorem raise_trace (c : FaultCause) : (s.raise c).trace = s.trace := rfl
@[simp] theorem raise_hostStuck (c : FaultCause) : (s.raise c).hostStuck = s.hostStuck := rfl
@[simp] theorem raise_rdata (c : FaultCause) : (s.raise c).rdata = s.rdata := rfl
@[simp] theorem raise_agenda (c : FaultCause) : (s.raise c).agenda = s.agenda := rfl
@[simp] theorem raise_draws (c : FaultCause) : (s.raise c).draws = s.draws := rfl
@[simp] theorem raise_flag (c : FaultCause) (g : Flag) : (s.raise c).flag g = s.flag g := rfl

/-! ## putFlag -/

@[simp] theorem putFlag_ctl (f : Flag) (b : Bool) : (s.putFlag f b).ctl = s.ctl := rfl
@[simp] theorem putFlag_prng (f : Flag) (b : Bool) : (s.putFlag f b).prng = s.prng := rfl
@[simp] theorem putFlag_seeded (f : Flag) (b : Bool) : (s.putFlag f b).seeded = s.seeded := rfl
@[simp] theorem putFlag_result (f : Flag) (b : Bool) : (s.putFlag f b).result = s.result := rfl
@[simp] theorem putFlag_flags (f : Flag) (b : Bool) : (s.putFlag f b).flags = s.flags.set f.index.val b f.index.isLt := rfl
@[simp] theorem putFlag_fault (f : Flag) (b : Bool) : (s.putFlag f b).fault = s.fault := rfl
@[simp] theorem putFlag_fcause (f : Flag) (b : Bool) : (s.putFlag f b).fcause = s.fcause := rfl
@[simp] theorem putFlag_tarmed (f : Flag) (b : Bool) : (s.putFlag f b).tarmed = s.tarmed := rfl
@[simp] theorem putFlag_target (f : Flag) (b : Bool) : (s.putFlag f b).target = s.target := rfl
@[simp] theorem putFlag_capt (f : Flag) (b : Bool) : (s.putFlag f b).capt = s.capt := rfl
@[simp] theorem putFlag_tseq (f : Flag) (b : Bool) : (s.putFlag f b).tseq = s.tseq := rfl
@[simp] theorem putFlag_cseq (f : Flag) (b : Bool) : (s.putFlag f b).cseq = s.cseq := rfl
@[simp] theorem putFlag_lives (f : Flag) (b : Bool) : (s.putFlag f b).lives = s.lives := rfl
@[simp] theorem putFlag_stepNo (f : Flag) (b : Bool) : (s.putFlag f b).stepNo = s.stepNo := rfl
@[simp] theorem putFlag_curl (f : Flag) (b : Bool) : (s.putFlag f b).curl = s.curl := rfl
@[simp] theorem putFlag_pos (f : Flag) (b : Bool) : (s.putFlag f b).pos = s.pos := rfl
@[simp] theorem putFlag_base (f : Flag) (b : Bool) : (s.putFlag f b).base = s.base := rfl
@[simp] theorem putFlag_outc (f : Flag) (b : Bool) : (s.putFlag f b).outc = s.outc := rfl
@[simp] theorem putFlag_trace (f : Flag) (b : Bool) : (s.putFlag f b).trace = s.trace := rfl
@[simp] theorem putFlag_hostStuck (f : Flag) (b : Bool) : (s.putFlag f b).hostStuck = s.hostStuck := rfl
@[simp] theorem putFlag_rdata (f : Flag) (b : Bool) : (s.putFlag f b).rdata = s.rdata := rfl
@[simp] theorem putFlag_agenda (f : Flag) (b : Bool) : (s.putFlag f b).agenda = s.agenda := rfl
@[simp] theorem putFlag_draws (f : Flag) (b : Bool) : (s.putFlag f b).draws = s.draws := rfl

/-! ## platformReset -/

@[simp] theorem platformReset_ctl (b : Bool) : (s.platformReset b).ctl = State.reset.ctl := rfl
@[simp] theorem platformReset_prng (b : Bool) : (s.platformReset b).prng = State.reset.prng := rfl
@[simp] theorem platformReset_seeded (b : Bool) : (s.platformReset b).seeded = State.reset.seeded := rfl
@[simp] theorem platformReset_result (b : Bool) : (s.platformReset b).result = State.reset.result := rfl
@[simp] theorem platformReset_flags (b : Bool) : (s.platformReset b).flags = State.reset.flags := rfl
@[simp] theorem platformReset_fault (b : Bool) : (s.platformReset b).fault = State.reset.fault := rfl
@[simp] theorem platformReset_fcause (b : Bool) : (s.platformReset b).fcause = State.reset.fcause := rfl
@[simp] theorem platformReset_tarmed (b : Bool) : (s.platformReset b).tarmed = State.reset.tarmed := rfl
@[simp] theorem platformReset_target (b : Bool) : (s.platformReset b).target = State.reset.target := rfl
@[simp] theorem platformReset_capt (b : Bool) : (s.platformReset b).capt = State.reset.capt := rfl
@[simp] theorem platformReset_tseq (b : Bool) : (s.platformReset b).tseq = State.reset.tseq := rfl
@[simp] theorem platformReset_cseq (b : Bool) : (s.platformReset b).cseq = State.reset.cseq := rfl
@[simp] theorem platformReset_lives (b : Bool) : (s.platformReset b).lives = State.reset.lives := rfl
@[simp] theorem platformReset_stepNo (b : Bool) : (s.platformReset b).stepNo = State.reset.stepNo := rfl
@[simp] theorem platformReset_curl (b : Bool) : (s.platformReset b).curl = State.reset.curl := rfl
@[simp] theorem platformReset_pos (b : Bool) : (s.platformReset b).pos = State.reset.pos := rfl
@[simp] theorem platformReset_base (b : Bool) : (s.platformReset b).base = State.reset.base := rfl
@[simp] theorem platformReset_outc (b : Bool) : (s.platformReset b).outc = State.reset.outc := rfl
@[simp] theorem platformReset_trace (b : Bool) : (s.platformReset b).trace = State.reset.trace := rfl
@[simp] theorem platformReset_hostStuck (b : Bool) : (s.platformReset b).hostStuck = (s.hostStuck && !b) := rfl
@[simp] theorem platformReset_rdata (b : Bool) : (s.platformReset b).rdata = s.rdata := rfl
@[simp] theorem platformReset_agenda (b : Bool) : (s.platformReset b).agenda = s.agenda := rfl
@[simp] theorem platformReset_draws (b : Bool) : (s.platformReset b).draws = s.draws := rfl

/-! ## The flag bank -/

/-- Two flags with one index are one flag. -/
theorem flag_index_injective {f g : Flag} (h : f.index = g.index) : f = g := by
  cases f <;> cases g <;> first | rfl | exact absurd h (by decide)

@[simp] theorem flag_putFlag_self (f : Flag) (b : Bool) : (s.putFlag f b).flag f = b := by
  simp [flag, putFlag, Vector.get_eq_getElem]

@[simp] theorem flag_putFlag_of_ne {f g : Flag} (h : g ≠ f) (b : Bool) : (s.putFlag f b).flag g = s.flag g := by
  have hne : f.index.val ≠ g.index.val := fun e => h (flag_index_injective (Fin.ext e).symm)
  simp [flag, putFlag, Vector.get_eq_getElem, hne]

/-- Reading any flag after writing one. -/
theorem flag_putFlag (f g : Flag) (b : Bool) : (s.putFlag f b).flag g = if g = f then b else s.flag g := by
  by_cases h : g = f
  · subst h; simp
  · simp [h]

/-- Writing a flag its own value changes nothing. -/
theorem putFlag_flag (f : Flag) : s.putFlag f (s.flag f) = s := by
  simp [putFlag, flag, Vector.get_eq_getElem]

/-- Only the last write of a flag counts. -/
theorem putFlag_putFlag (f : Flag) (a b : Bool) : (s.putFlag f a).putFlag f b = s.putFlag f b := by
  simp [putFlag]

/-- Writes of different flags commute. -/
theorem putFlag_comm {f g : Flag} (h : f ≠ g) (a b : Bool) :
    (s.putFlag f a).putFlag g b = (s.putFlag g b).putFlag f a := by
  have hne : f.index.val ≠ g.index.val := fun e => h (flag_index_injective (Fin.ext e))
  simp [putFlag, Vector.set_comm _ _ hne]

/-- Every flag is 0 after reset (10_state.md R45). -/
@[simp] theorem reset_flag (f : Flag) : State.reset.flag f = false := by cases f <;> rfl

end Sys2Proof.Machine.State
end

