-- ==== Sys2Proof/Laws/Ops.lean ====
section
/-! SUPPORT. For each shared operation, one lemma that says everything it can do: acceptance of a command, the schedule,
one agent's step, the draw, the lane arrays, the detector. Proofs cite these instead of unfolding the operation. -/

namespace Sys2Proof.Machine

/-! ## Acceptance of a command (60_exceptions.md R230) -/

@[simp] theorem accept_halted {s : State} (h : s.ctl = .halted) (rule : State → State) : s.accept rule = s := by
  simp [State.accept, h]

@[simp] theorem accept_idle {s : State} (h : s.ctl = .idle) (rule : State → State) : s.accept rule = rule s := by
  simp [State.accept, h]

theorem accept_busy {s : State} (hi : s.ctl ≠ .idle) (hh : s.ctl ≠ .halted) (rule : State → State) :
    s.accept rule = s.raise .busy := by
  unfold State.accept
  split <;> simp_all

/-- The three ways a command is accepted. -/
theorem accept_cases (s : State) (rule : State → State) :
    (s.ctl = .halted ∧ s.accept rule = s) ∨ (s.ctl = .idle ∧ s.accept rule = rule s) ∨
    (s.ctl ≠ .idle ∧ s.ctl ≠ .halted ∧ s.accept rule = s.raise .busy) := by
  by_cases hh : s.ctl = .halted
  · exact .inl ⟨hh, accept_halted hh rule⟩
  · by_cases hi : s.ctl = .idle
    · exact .inr (.inl ⟨hi, accept_idle hi rule⟩)
    · exact .inr (.inr ⟨hi, hh, accept_busy hi hh rule⟩)

/-! ## The schedule -/

theorem nextAction_cons {s : State} {a : Action} {rest : List Action} (h : s.agenda = a :: rest) :
    s.nextAction = (a, { s with agenda := rest }) := by
  simp [State.nextAction, h]

theorem nextAction_nil {s : State} (h : s.agenda = []) :
    s.nextAction = (Config.freeAction s.draws, { s with draws := s.draws + 1 }) := by
  simp [State.nextAction, h]

/-- Choosing the next agent touches only the agenda and the count of free actions. -/
theorem nextAction_snd (s : State) :
    s.nextAction.2 = { s with agenda := s.nextAction.2.agenda, draws := s.nextAction.2.draws } := by
  unfold State.nextAction
  split <;> rfl

/-! ## One agent's step -/

/-- A write of a word to CMD does nothing, raises ILLEGAL, or runs the command the word decodes to. -/
theorem writeCmd_cases (w : Word) (s : State) :
    (s.ctl = .halted ∧ writeCmd w s = .next s) ∨
    (s.ctl ≠ .halted ∧ (∃ r, decode w = .error r) ∧ writeCmd w s = .next (s.raise .illegal)) ∨
    (s.ctl ≠ .halted ∧ ∃ i, decode w = .ok i ∧ writeCmd w s = exec i s) := by
  unfold writeCmd
  by_cases h : s.ctl = .halted
  · simp [h]
  · cases hd : decode w <;> simp [h]

/-- Everything one agent's step can be. -/
theorem act_cases {a : Action} {s t : State} (h : act a s = .next t) :
    (a.isHost = true ∧ s.hostStuck = true ∧ t = s) ∨
    (∃ off n v, a = .hostWrite off n v ∧ s.hostStuck = false ∧
      ((admitted off n = false ∧ t = { s with hostStuck := true }) ∨ (admitted off n = true ∧ off ≠ 0x0 ∧ t = s) ∨
       (off = 0x0 ∧ n = 4 ∧ writeCmd v s = .next t))) ∨
    (∃ off n, a = .hostRead off n ∧ s.hostStuck = false ∧ t = hostReadStep off n s) ∨
    (∃ inp, a = .engine inp ∧ t = engineStep inp s) ∨
    (∃ f, a = .src f ∧ t = sourceStep f s) ∨
    (a = .timer ∧ t = timerStep s) ∨
    (∃ b, a = .reset b ∧ t = s.platformReset b) := by
  unfold act at h
  split at h
  · rename_i hs
    simp only [Bool.and_eq_true] at hs
    cases h
    exact .inl ⟨hs.1, hs.2, rfl⟩
  · rename_i hs
    cases a with
    | hostWrite off n v =>
      have hstuck : s.hostStuck = false := by simpa [Action.isHost] using hs
      refine .inr (.inl ⟨off, n, v, rfl, hstuck, ?_⟩)
      simp only [hostWriteStep] at h
      split at h
      · rename_i hadm
        split at h
        · rename_i hoff
          subst hoff
          exact .inr (.inr ⟨rfl, by simpa [admitted] using hadm, h⟩)
        · rename_i hoff
          cases h
          exact .inr (.inl ⟨hadm, hoff, rfl⟩)
      · rename_i hadm
        cases h
        exact .inl ⟨by simpa using hadm, rfl⟩
    | hostRead off n =>
      cases h
      exact .inr (.inr (.inl ⟨off, n, rfl, by simpa [Action.isHost] using hs, rfl⟩))
    | engine inp => cases h; exact .inr (.inr (.inr (.inl ⟨inp, rfl, rfl⟩)))
    | src f => cases h; exact .inr (.inr (.inr (.inr (.inl ⟨f, rfl, rfl⟩))))
    | timer => cases h; exact .inr (.inr (.inr (.inr (.inr (.inl ⟨rfl, rfl⟩)))))
    | reset b => cases h; exact .inr (.inr (.inr (.inr (.inr (.inr ⟨b, rfl, rfl⟩)))))

/-! ## Draws and bits -/

/-- A draw of a nonzero size that fits in a byte is the remainder (40_prng.md R107, R109). -/
theorem drawValue_toNat (s size : Word) (h : size ≠ 0) (hb : size.toNat ≤ 256) :
    (drawValue s size).toNat = s.toNat % size.toNat := by
  have hpos : 0 < size.toNat := Nat.pos_of_ne_zero fun e => h (BitVec.eq_of_toNat_eq (by simpa using e))
  have hlt := Nat.mod_lt s.toNat hpos
  simp only [drawValue, BitVec.toNat_setWidth, BitVec.toNat_umod]
  omega

/-- `next_draw(n)`: S advances, nothing else of the state changes, and the value is the remainder of the new S
(40_prng.md R109). -/
theorem nextDraw_spec (s : State) (n : Word) (h : n ≠ 0) (hb : n.toNat ≤ 256) :
    (nextDraw s n).2 = { s with prng := mix s.prng } ∧ (nextDraw s n).1.toNat = (mix s.prng).toNat % n.toNat :=
  ⟨rfl, drawValue_toNat _ _ h hb⟩

/-- Writing one bit of a word: that bit, and the others as before (40_prng.md R102). -/
theorem getLsbD_setWordBit (v : Word) (i : Nat) (b : Bool) (hi : i < 32) (j : Nat) (hj : j < 32) :
    (setWordBit v i b).getLsbD j = if j = i then b else v.getLsbD j := by
  have key : (1#32 <<< i).getLsbD j = decide (j = i) := by
    rw [BitVec.getLsbD_shiftLeft, BitVec.getLsbD_one]
    by_cases h : j = i
    · subst h; simp [hj]
    · by_cases h2 : j < i
      · simp [h, h2]
      · simp [h, hj]; omega
  cases b
  · have e : (setWordBit v i false).getLsbD j = (v.getLsbD j && (decide (j < 32) && !decide (j = i))) := by
      rw [← key, ← BitVec.getLsbD_not, ← BitVec.getLsbD_and]
      rfl
    rw [e]; by_cases h : j = i <;> simp [h, hj]
  · have e : (setWordBit v i true).getLsbD j = (v.getLsbD j || decide (j = i)) := by
      rw [← key, ← BitVec.getLsbD_or]
      rfl
    rw [e]; by_cases h : j = i <;> simp [h]

/-! ## Lane arrays -/

@[simp] theorem markLane_get_self (x : Vector Byte 4) (l : Lane) (k : BitVec 3) :
    (markLane x l k).get l = x.get l ||| (1#8 <<< k.toNat) := by
  simp [markLane, Vector.get_eq_getElem]

@[simp] theorem markLane_get_of_ne (x : Vector Byte 4) {l m : Lane} (h : m ≠ l) (k : BitVec 3) :
    (markLane x l k).get m = x.get m := by
  have : l.val ≠ m.val := fun e => h (Fin.ext e.symm)
  simp [markLane, Vector.get_eq_getElem, this]

@[simp] theorem clearLanes_get (l : Lane) : clearLanes.get l = 0 := by
  simp [clearLanes, Vector.get_eq_getElem]

/-- The win test of Q_VERIFY is equality of the two arrays (43_sequence_memory.md R197). -/
theorem lanesEqual_iff (x y : Vector Byte 4) : lanesEqual x y = true ↔ ∀ l : Lane, x.get l = y.get l := by
  simp only [lanesEqual, Bool.and_eq_true, beq_iff_eq]
  constructor
  · rintro ⟨⟨⟨h0, h1⟩, h2⟩, h3⟩ l
    fin_cases l <;> assumption
  · intro h
    exact ⟨⟨⟨h 0, h 1⟩, h 2⟩, h 3⟩

/-! ## The edge detector -/

/-- The baseline always becomes the sample (41_event_flags.md R142). -/
@[simp] theorem detect_snd (policy : CapturePolicy) (base cur : BitVec 4) : (detect policy base cur).2 = cur := by
  unfold detect
  split
  · rename_i h; exact h.symm
  · split <;> rfl

/-! ## The digit routine -/

/-- A one-digit value has one digit (42_guess_number.md R160, R162). -/
theorem digitsOf_small (v : BitVec 16) (h : v.toNat < 10) : digitsOf v = [BitVec.ofNat 4 v.toNat] := by
  have h1 : ¬ 1 * 10 ≤ v.toNat := by omega
  simp [digitsOf, growPower, h1, peelDigits]

/-! ## ENGINE -/

/-- The control state reached from a wait is never HALTED, IDLE or a wait (10_state.md R26). -/
theorem waitTargetCtl_ne (n : WaitTarget) :
    waitTargetCtl n ≠ .halted ∧ waitTargetCtl n ≠ .idle ∧ ∀ m, waitTargetCtl n ≠ .wait m := by
  cases n <;> refine ⟨?_, ?_, fun m => ?_⟩ <;> intro h <;> cases h

end Sys2Proof.Machine
end

