-- ==== Sys2Proof/Laws/PerInstr.lean ====
section
/-! SUPPORT. Statements made of every instruction, one lemma per constructor. -/

namespace Sys2Proof.Laws.OperandRange

/-- Every operand value of the type is in the legal range of 30_encoding.md R81: no command is ill-formed. -/
def Statement (i : Instr) : Prop := i.wellFormed = true

theorem seed : Statement .seed := rfl
theorem advance : Statement .advance := rfl
theorem draw (size : Byte) : Statement (.draw size) := by simpa [Statement, Instr.wellFormed] using size.isLt
theorem ftest (f : Flag) : Statement (.ftest f) := rfl
theorem fclr (f : Flag) : Statement (.fclr f) := rfl
theorem digits (v : BitVec 16) : Statement (.digits v) := by simpa [Statement, Instr.wellFormed] using v.isLt
theorem runguess : Statement .runguess := rfl
theorem runseq : Statement .runseq := rfl

end Sys2Proof.Laws.OperandRange
end

