-- ==== Sys2Proof/Tests/Slice0.lean ====
section
/-! SUPPORT. The model's own tests: well-formedness, decoding of words written out from the encoding, one step of each
command and engine state on a small state, with values from spec/95_test_vectors.md; then, for each statement that has
hypotheses, a state and operands that meet them (witness_<statement>). -/

namespace Sys2Proof.Tests

open Sys2Proof.Machine Sys2Proof.Safety Sys2Proof.Claims

/-- The next state, if there is one. -/
def after (o : Host.Outcome State Fault Refusal) : Option State :=
  match o with
  | .next t => some t
  | .fault _ => none
  | .refused _ => none

/-- A seeded machine with `S = 1` in a given control state. -/
def at1 (c : Ctl) : State := { State.reset with seeded := true, prng := 1, ctl := c }

/-- An idle machine, unseeded, with one flag set. -/
def flagged (f : Flag) : State := State.reset.putFlag f true

/-- Lane arrays of the source's example (95_test_vectors.md W7, W8). -/
def target7 : Vector Byte 4 := #v[0x21, 0x0C, 0x02, 0x10]
def capture8 : Vector Byte 4 := #v[0x01, 0x2C, 0x02, 0x10]

/-! ## Well-formedness: a term each check refuses -/

theorem test_wf_refuses_draw_256 : (AsmLine.draw 256).wellFormed = false := by decide
theorem test_wf_refuses_next_256 : (AsmLine.next 256).wellFormed = false := by decide
theorem test_wf_refuses_flag_8 : (AsmLine.ftest (.number 8)).wellFormed = false := by decide
theorem test_wf_refuses_fclr_8 : (AsmLine.fclr (.number 8)).wellFormed = false := by decide
theorem test_wf_refuses_ack_8 : (AsmLine.ack (.number 8)).wellFormed = false := by decide
theorem test_wf_refuses_digits_65536 : (AsmLine.digits 65536).wellFormed = false := by decide
theorem test_wf_admits_boundaries :
    (AsmLine.draw 255).wellFormed && (AsmLine.ftest (.number 7)).wellFormed && (AsmLine.digits 65535).wellFormed &&
      (Instr.draw 0).wellFormed && (Instr.digits 65535).wellFormed = true := by decide

/-! ## Decoding (30_encoding.md R82, R85; 95_test_vectors.md T22) -/

theorem test_decode_seed : decode 0x01000000 = .ok .seed := rfl
theorem test_decode_advance : decode 0x02000000 = .ok .advance := rfl
theorem test_decode_draw : decode 0x030000FF = .ok (.draw 255) := rfl
theorem test_decode_draw_zero : decode 0x03000000 = .ok (.draw 0) := rfl
theorem test_decode_ftest : decode 0x04010000 = .ok (.ftest .confirm) := rfl
theorem test_decode_ftest_btn4 : decode 0x04070000 = .ok (.ftest .btn4) := rfl
theorem test_decode_fclr : decode 0x05020000 = .ok (.fclr .timer) := rfl
theorem test_decode_digits : decode 0x060004B4 = .ok (.digits 1204) := rfl
theorem test_decode_runguess : decode 0x07000000 = .ok .runguess := rfl
theorem test_decode_runseq : decode 0x08000000 = .ok .runseq := rfl
theorem test_reject_zero : decode 0x00000000 = .error .undefinedOp := rfl
theorem test_reject_op9 : decode 0x09000000 = .error .undefinedOp := rfl
theorem test_reject_opFF : decode 0xFF000000 = .error .undefinedOp := rfl
theorem test_reject_seed_imm : decode 0x01000001 = .error .nonzeroImm := rfl
theorem test_reject_draw_256 : decode 0x03000100 = .error .nonzeroImm := rfl
theorem test_reject_flag_8 : decode 0x04080000 = .error .flagIndex := rfl
theorem test_reject_ftest_imm : decode 0x04010001 = .error .nonzeroImm := rfl
theorem test_reject_digits_a : decode 0x06010000 = .error .nonzeroA := rfl
theorem test_table_word : decodeTableWord 32 0x030000FF = some (.draw 255) := rfl
theorem test_encode_examples :
    [encode (.draw 255), encode (.draw 4), encode (.ftest .confirm), encode (.fclr .timer), encode (.digits 1204)] =
      [0x030000FF, 0x03000004, 0x04010000, 0x05020000, 0x060004B4] := by decide
theorem test_assemble_next : (AsmLine.next 255).assemble = some [0x02000000, 0x030000FF] := by decide

/-! ## Commands, one step each, as the first instruction after reset or on a small state -/

theorem test_seed_starts : (after (step (State.reset.withFetchWord 32 0x01000000))).map (fun t => (t.ctl, t.status)) =
    some (.seeding 0, 0x01) := by decide
theorem test_seed_again : (after (exec .seed (at1 .idle))).map State.status = some 0x46 := by decide
theorem test_advance : (after (exec .advance (at1 .idle))).map State.prng = some 0x85EB4F80 := by decide
theorem test_advance_unseeded : (after (exec .advance State.reset)).map State.status = some 0x34 := by decide
theorem test_draw : (after (exec (.draw 255) { at1 .idle with prng := 0x85EB4F80 })).map State.result = some 65 := by
  decide
theorem test_draw_zero : (after (exec (.draw 0) (at1 .idle))).map State.status = some 0x56 := by decide
theorem test_ftest : (after (exec (.ftest .exit) (flagged .exit))).map (fun t => (t.result, t.flag .exit)) =
    some (1, true) := by decide
theorem test_ftest_clear : (after (exec (.ftest .confirm) (flagged .exit))).map State.result = some 0 := by decide
theorem test_fclr : (after (exec (.fclr .btn2) (flagged .btn2))).map State.flags = some State.reset.flags := by decide
theorem test_fclr_other : (after (exec (.fclr .btn1) (flagged .btn2))).map (fun t => t.flag .btn2) = some true := by
  decide
theorem test_digits : (after (exec (.digits 207) State.reset)).map State.trace =
    some [.disp (.digit 2), .disp (.digit 0), .disp (.digit 7)] := by decide
theorem test_digits_range : (after (exec (.digits 10000) State.reset)).map State.status = some 0x64 := by decide
theorem test_runguess : (after (exec .runguess (at1 .idle))).map State.status = some 0x03 := by decide
theorem test_runguess_unseeded : (after (exec .runguess State.reset)).map State.status = some 0x34 := by decide
theorem test_runseq : (after (exec .runseq (at1 .idle))).map State.ctl = some .qEntry := by decide
theorem test_runseq_busy : (after (exec .runseq (at1 .gAwait))).map State.status = some 0x26 := by decide
theorem test_illegal_before_busy :
    (after (writeCmd 0x09000000 { State.reset with ctl := .seeding 0 })).map State.status = some 0x14 := by decide

/-! ## The mix step, the digits, the detector (95_test_vectors.md T2, T6, T10) -/

theorem test_mix_table :
    [mix 0x00000002, mix 0x00002000, mix 0x80000000, mix 0xFFFFFFFF, mix 0x12345678, mix 0xDEADBEEF, mix 0xCAFEF00D] =
      [0x0BD79F01, 0xFF39D552, 0xA9ACA9AC, 0xACA8ACA8, 0xF8DF74C1, 0x158336D5, 0x1EF76789] := by decide
theorem test_digits_table :
    [digitsOf 0, digitsOf 9, digitsOf 10, digitsOf 100, digitsOf 1000, digitsOf 9999] =
      [[0], [9], [1, 0], [1, 0, 0], [1, 0, 0, 0], [9, 9, 9, 9]] := by decide
theorem test_detect_press_new :
    [detect .pressNew 1 3, detect .pressNew 3 1, detect .pressNew 0 5, detect .pressNew 5 0xA] =
      [(some 1, 3), (none, 1), (some 0, 5), (some 1, 0xA)] := by decide
theorem test_detect_others :
    [detect .pressLevel 1 3, detect .pressLevel 2 6, detect .anyChange 1 0, detect .anyChange 5 0xA] =
      [(some 0, 3), (some 1, 6), (some 0, 0), (some 0, 0xA)] := by decide

/-! ## ENGINE, one step each -/

theorem test_seeding_last : (engineStep ⟨true, 0, 0⟩ { State.reset with ctl := .seeding 31 }).status = 0x02 := by decide
theorem test_gSetup : (engineStep default (at1 .gSetup)).target = 65 := by decide
theorem test_gAwait : (engineStep ⟨false, 0x41, 0⟩ ((at1 .gAwait).putFlag .confirm true)).ctl = .wait .gShow := by decide
theorem test_gShow_lose : (engineStep default { at1 .gShow with target := 65, capt := 66 }).trace =
    [.disp .lose, .disp (.digit 6), .disp (.digit 6), .disp (.value 65), .tstart .result] := by decide
theorem test_gEnd : (engineStep default { at1 .gEnd with outc := true }).result = 1 := by decide
theorem test_qEntry : (engineStep default (at1 .qEntry)).trace = [.extAll, .disp .lives, .disp (.digit 3)] := by decide
theorem test_qPresent : (engineStep default { at1 .qPresent with prng := 0xC55 }).tseq = #v[1, 0, 0, 0] := by decide
theorem test_qPresentOff_last : (engineStep default { at1 .qPresentOff with stepNo := 5 }).ctl = .wait .qCapInit := by
  decide
theorem test_qCapture : (engineStep ⟨false, 0, 4⟩ (at1 .qCapture)).cseq = #v[0, 0, 1, 0] := by decide
theorem test_qVerify_win :
    (engineStep default { at1 .qVerify with tseq := target7, cseq := target7, lives := 3 }).outc = true := by decide
theorem test_qVerify_lose :
    (engineStep default { at1 .qVerify with tseq := target7, cseq := capture8, lives := 1 }).trace =
      [.extAll, .disp .lives, .disp (.digit 0), .disp .lose, .tstart .result] := by decide
theorem test_wait_spins : engineStep default (at1 (.wait .gEnd)) = at1 (.wait .gEnd) := by decide
theorem test_capture_feedback_lane :
    (engineStep ⟨false, 0, 8⟩ (at1 .qCapture)).trace = [.ind (Config.laneInd 3) true] := rfl

/-! ## HOST's window, the other agents, a host program -/

theorem test_read_status : (after (act (.hostRead 0x8 4) (at1 .qEntry))).map State.rdata = some (some 0x03) := by decide
theorem test_byte_read_sticks : (after (act (.hostRead 0x8 1) State.reset)).map State.hostStuck = some true := by decide
theorem test_timer_fires :
    (after (act .timer { at1 (.wait .gEnd) with tarmed := true })).map (fun t => (t.flag .timer, t.tarmed)) =
      some (true, false) := by decide
theorem test_reset_from_halted :
    (after (act (.reset false) (haltedWith (at1 .gShow) 2))).map State.status = some 0x00 := by decide
/-- 95_test_vectors.md P6: use before seeding. -/
theorem test_program_p6 :
    (runProgram 4 [.cmd .runseq, .rdStatus, .cmd .seed, .rdStatus]).map (fun x => x.machine.rdata) =
      some (some 0x34) := by decide

/-! ## Witnesses: for each statement with hypotheses, and each of its clauses, a state and operands that meet them -/

theorem witness_EncodeOfDecodeIsIdentity : ∃ w i, decode w = .ok i := ⟨0x04070000, .ftest .btn4, rfl⟩
theorem witness_DecodeOfEncodeIsIdentity : ∃ i : Instr, i.wellFormed = true := ⟨.draw 255, rfl⟩
theorem witness_LegalWordMatchesExactlyOneRow :
    (decode 0x030000FF = .ok (.draw 255) ∧ decode 0x04070000 = .ok (.ftest .btn4) ∧
      decode 0x0600FFFF = .ok (.digits 65535)) ∧
    ∃ r ∈ opcodeMap, r.matchesWord 0x0600FFFF = true :=
  ⟨⟨rfl, rfl, rfl⟩, ⟨"DIGITS", 0x06000000, 0xFFFF0000⟩, by decide⟩
theorem witness_IllegalWordsRaiseIllegal :
    ∃ (w : Word) (s : State), (∃ r, decode w = .error r) ∧ s.ctl ≠ .halted ∧ s.hostStuck = false :=
  ⟨0x09000000, State.reset, ⟨_, rfl⟩, by decide, rfl⟩
theorem witness_LinesAssembleToCommandWords : (255 : Nat) < 256 ∧ ∀ size, AsmLine.seed ≠ .next size :=
  ⟨by decide, fun _ h => nomatch h⟩
theorem witness_StepIsTheNextAgentsStep :
    (∃ (s : State) (a : Action) (rest : List Action), s.agenda = a :: rest) ∧ (∃ s : State, s.agenda = []) ∧
    (at1 .idle).ctl = .idle ∧ (at1 .halted).ctl = .halted :=
  ⟨⟨{ State.reset with agenda := [.timer] }, .timer, [], rfl⟩, ⟨State.reset, rfl⟩, rfl, rfl⟩
theorem witness_StepRunsDecodedCommand :
    ∃ (s : State) (w : Word) (i : Instr) (rest : List Action),
      s.agenda = .hostWrite 0x0 4 w :: rest ∧ s.hostStuck = false ∧ decode w = .ok i ∧ i.wellFormed = true :=
  ⟨State.reset.withFetchWord 32 0x01000000, 0x01000000, .seed, [], rfl, rfl, rfl, rfl⟩
theorem witness_CommandAcceptanceOrder :
    State.reset.hostStuck = false ∧ (at1 .halted).ctl = .halted ∧ (∀ i, decode 0 ≠ .ok i) ∧
    ((at1 (.seeding 31)).ctl ≠ .halted ∧ (at1 (.seeding 31)).ctl ≠ .idle) ∧ decode 0x02000000 = .ok .advance ∧
    (at1 .idle).ctl = .idle :=
  ⟨rfl, rfl, (fun i h => nomatch (show (Except.error Reject.undefinedOp : Except Reject Instr) = .ok i from h)), by decide, rfl, rfl⟩
theorem witness_UnseededCommandsFault : State.reset.ctl = .idle ∧ State.reset.seeded = false := by decide
theorem witness_FaultEntryChangesNothingElse :
    ∃ t, (at1 .qCapture).ctl ≠ .halted ∧ act (command .advance) (at1 .qCapture) = .next t ∧ t.ctl = .halted :=
  ⟨haltedWith (at1 .qCapture) 2, by decide, rfl, rfl⟩
theorem witness_HaltedUntilReset :
    ∃ s t : State, s.ctl = .halted ∧ s.hostStuck = false ∧ s.tarmed = true ∧ act .timer s = .next t :=
  ⟨{ at1 .halted with tarmed := true }, _, rfl, rfl, rfl, rfl⟩
theorem witness_SeedStartsSeeding :
    (State.reset.ctl = .idle ∧ State.reset.seeded = false) ∧ ((at1 .idle).ctl = .idle ∧ (at1 .idle).seeded = true) ∧
    (at1 (.seeding 31)).ctl = .seeding 31 := by decide
theorem witness_AdvanceAppliesMix :
    ((at1 .idle).ctl = .idle ∧ (at1 .idle).seeded = true) ∧ State.reset.ctl = .idle ∧ State.reset.seeded = false := by
  decide
theorem witness_DrawReturnsRemainder :
    ((at1 .idle).ctl = .idle ∧ (at1 .idle).seeded = true ∧ (1 : Byte) ≠ 0 ∧ (255 : Byte) ≠ 0) ∧
    State.reset.ctl = .idle ∧ State.reset.seeded = false := by decide
theorem witness_FtestReadsFlag : (flagged .timer).ctl = .idle ∧ State.reset.ctl = .idle ∧ TimerInv State.reset :=
  ⟨rfl, rfl, by simp [TimerInv, State.reset, State.flag]⟩
theorem witness_FclrClearsFlag :
    (flagged .btn4).ctl = .idle ∧ IsSetStep (.src .btn4) .btn4 ((flagged .btn4).putFlag .btn4 false) ∧
    IsSetStep .timer .timer { State.reset with tarmed := true } :=
  ⟨rfl, .inl ⟨.btn4, rfl, rfl⟩, .inr ⟨rfl, rfl, rfl⟩⟩
theorem witness_DigitsEmitsOrFaults :
    State.reset.ctl = .idle ∧ (9999#16).toNat ≤ 9999 ∧ 9999 < (10000#16).toNat := by decide
theorem witness_DigitsReconstructValue : (0#16).toNat ≤ 9999 ∧ (9999#16).toNat ≤ 9999 ∧ (digitsOf 0).head? = some 0 := by
  decide
theorem witness_GameCommandsStartGames :
    (at1 .idle).ctl = .idle ∧ (at1 .idle).seeded = true ∧ State.reset.ctl = .idle ∧ State.reset.seeded = false := by
  decide
theorem witness_SeedingBuildsSeedFromSamples :
    ∃ (s : State) (ans : Fin 32 → Inputs) (rest : List Action),
      s.ctl = .seeding 0 ∧ s.agenda = (List.finRange 32).map (fun i => Action.engine (ans i)) ++ rest ∧
      (at1 (.seeding 31)).ctl = .seeding 31 ∧ (30 : Nat) + 1 < 32 :=
  ⟨{ State.reset with ctl := .seeding 0, agenda := (List.finRange 32).map (fun _ => Action.engine default) ++ [] },
    fun _ => default, [], rfl, rfl, rfl, by decide⟩
theorem witness_PrngChangesOnlyAsStated :
    ∃ t, act (.engine default) (at1 .qPresent) = .next t ∧ t.prng ≠ (at1 .qPresent).prng := ⟨_, rfl, by decide⟩
theorem witness_InterruptStepsSetTheirFlag :
    (flagged .btn0).flag (sourceFlag .btn0) = true ∧ ({ at1 (.wait .qEnd) with tarmed := true } : State).tarmed = true := by
  decide
theorem witness_FlagHasSingleWriter :
    ∃ t, act (.src .confirm) (at1 .gAwait) = .next t ∧ (at1 .gAwait).flag .confirm = false ∧ t.flag .confirm = true :=
  ⟨_, rfl, by decide, by decide⟩
theorem witness_EngineIgnoresOtherFlags : Flag.exit ≠ .confirm ∧ Flag.exit ≠ .timer ∧ Flag.btn0 ≠ .timer := by decide
theorem witness_SetBetweenTestAndClearIsLost :
    ∃ s u v : State, (s.ctl = .idle ∧ s.hostStuck = false ∧ IsSetStep (.src .confirm) .confirm s) ∧
      (s.flag .confirm = true ∧
        s.agenda = [command (.ftest .confirm), .src .confirm, command (.fclr .confirm)] ++ []) ∧
      (u.ctl = .idle ∧ u.hostStuck = false ∧ IsSetStep .timer .timer u ∧
        u.agenda = [command (.fclr .timer), .timer] ++ []) ∧
      (v.ctl = .idle ∧ v.hostStuck = false ∧ IsSetStep (.src .btn4) .btn4 v ∧ v.flag .btn4 = false ∧
        v.agenda = [command (.ftest .btn4), .src .btn4, command (.ftest .btn4)] ++ []) :=
  ⟨{ flagged .confirm with agenda := [command (.ftest .confirm), .src .confirm, command (.fclr .confirm)] },
    { State.reset with tarmed := true, agenda := [command (.fclr .timer), .timer] },
    { State.reset with agenda := [command (.ftest .btn4), .src .btn4, command (.ftest .btn4)] },
    ⟨rfl, rfl, .inl ⟨.confirm, rfl, rfl⟩⟩, ⟨by decide, rfl⟩, ⟨rfl, rfl, .inr ⟨rfl, rfl, rfl⟩, rfl⟩,
    ⟨rfl, rfl, .inl ⟨.btn4, rfl, rfl⟩, by decide, rfl⟩⟩
theorem witness_ArmedWaitEndsAfterTimer :
    ∃ s u : State, (s.ctl = .wait .qCapInit ∧ s.flag .timer = true) ∧
      (u.ctl = .wait .gShow ∧ u.flag .timer = false ∧ u.tarmed = true ∧ u.agenda = .timer :: .engine default :: []) :=
  ⟨(at1 (.wait .qCapInit)).putFlag .timer true,
    { at1 (.wait .gShow) with tarmed := true, agenda := [.timer, .engine default] },
    ⟨rfl, by decide⟩, ⟨rfl, by decide, rfl, rfl⟩⟩
theorem witness_DetectorNamesLowestLane :
    (0xF : BitVec 4) ≠ 0 ∧ (detect .pressNew 0 8).1 = some 3 ∧ (detect .pressLevel 2 6).1 = some 1 ∧
    (detect .anyChange 0xF 7).1 = some 3 := by decide
theorem witness_MixIsBijective : mix 0 = 0 ∧ mix 1 ≠ 0 := by decide
theorem witness_GuessSetupDrawsTarget : (at1 .gSetup).ctl = .gSetup := rfl
theorem witness_GuessAwaitCapturesOnConfirm :
    ((at1 .gAwait).putFlag .confirm true).ctl = .gAwait ∧ ((at1 .gAwait).putFlag .confirm true).flag .confirm = true ∧
    (at1 .gAwait).flag .confirm = false := by decide
theorem witness_GuessShowJudgesCapture :
    (at1 .gShow).ctl = .gShow ∧ (at1 .gShow).capt = (at1 .gShow).target ∧
    ({ at1 .gShow with capt := 255 } : State).capt ≠ (at1 .gShow).target := by decide
theorem witness_GameEndReturnsOutcome : (at1 .gEnd).ctl = .gEnd ∧ (at1 .qEnd).ctl = .qEnd := by decide
theorem witness_GuessRoundOutput :
    ∃ s : State, s.ctl = .idle ∧ s.seeded = true ∧ s.hostStuck = false ∧
      s.agenda = [command .runguess, .engine default, .src .confirm, .engine default, .timer, .engine default,
        .engine default, .timer, .engine default, .engine default] ++ [] :=
  ⟨{ at1 .idle with agenda := [command .runguess, .engine default, .src .confirm, .engine default, .timer,
      .engine default, .engine default, .timer, .engine default, .engine default] }, rfl, rfl, rfl, rfl⟩
theorem witness_Input255AlwaysLoses :
    ∃ s : State, GuessInv s ∧ s.ctl = .gShow ∧ s.capt = 255 :=
  ⟨{ at1 .gShow with target := 254, capt := 255 }, by simp [GuessInv, at1], rfl, rfl⟩
theorem witness_SequenceEntryClearsSession : (at1 .qEntry).ctl = .qEntry := rfl
theorem witness_PresentStepShowsDrawnLane : (at1 .qPresent).ctl = .qPresent := rfl
theorem witness_PresentOffCountsStep :
    ({ at1 .qPresentOff with stepNo := 5 } : State).ctl = .qPresentOff ∧ (5 : BitVec 3) + 1 = 6 := by decide
theorem witness_PresentationRecordsSixDraws :
    ∃ s : State, s.ctl = .qPresent ∧ s.stepNo = 0 ∧ (∀ l, s.tseq.get l = 0) ∧
      s.agenda = (List.replicate 6 presentTurn).flatten ++ [] :=
  ⟨{ at1 .qPresent with agenda := (List.replicate 6 presentTurn).flatten ++ [] }, rfl, rfl, by decide, rfl⟩
theorem witness_CaptureRecordsEvents :
    (at1 .qCapInit).ctl = .qCapInit ∧ (at1 .qCapture).ctl = .qCapture ∧
    ({ at1 .qCapture with pos := 5 } : State).ctl = .qCapture ∧ (5 : BitVec 3) + 1 = 6 ∧
    (detect .pressNew (at1 .qCapture).base 8).1 = some 3 ∧ (detect .anyChange (at1 .qCapture).base 0).1 = none := by
  decide
theorem witness_VerifyJudgesAttempt :
    (∀ l, target7.get l = target7.get l) ∧ ¬(∀ l, target7.get l = capture8.get l) ∧
    HasLives { at1 .qVerify with lives := 1 } ∧ HasLives { at1 .qVerify with lives := 3 } ∧
    (at1 .qVerify).ctl = .qVerify := by
  refine ⟨by decide, by decide, ?_, ?_, rfl⟩ <;> simp [HasLives]
theorem witness_WinMeansSameOrderedSequence : RecordsUpTo target7 6 ∧ RecordsUpTo capture8 6 := by
  unfold RecordsUpTo
  decide
theorem witness_ReadsReturnRegisters : State.reset.hostStuck = false := rfl
theorem witness_OtherAccessesDoNothing :
    (¬((2 : Nat) = 4 ∧ ((0x0 : BitVec 4) = 0x0 ∨ (0x0 : BitVec 4) = 0x4 ∨ (0x0 : BitVec 4) = 0x8))) ∧
    (¬((4 : Nat) = 4 ∧ ((0xC : BitVec 4) = 0x0 ∨ (0xC : BitVec 4) = 0x4 ∨ (0xC : BitVec 4) = 0x8))) ∧
    (Action.hostRead 0x8 4).isHost = true ∧ ({ State.reset with hostStuck := true } : State).hostStuck = true := by
  decide
theorem witness_WindowIsSixteenBytesAtBase :
    ∃ addr : Nat, addr < Config.gieBase ∨ Config.gieBase + 16 ≤ addr := ⟨Config.gieBase + 16, .inr (Nat.le_refl _)⟩
theorem witness_ResultHasFourWriters :
    ∃ t, act (.engine default) { at1 .gEnd with outc := true } = .next t ∧ t.result ≠ (at1 .gEnd).result :=
  ⟨_, rfl, by decide⟩
theorem witness_TraceAndSeedingLastUntilReset :
    ∃ t, act .timer (at1 .idle) = .next t ∧ (∀ b, Action.timer ≠ .reset b) ∧ (at1 .idle).seeded = true :=
  ⟨_, rfl, (fun _ h => nomatch h), rfl⟩
theorem witness_StepKeepsFaultInvariant : ∃ s t : State, FaultInv s ∧ step s = .next t :=
  ⟨{ at1 .qEntry with agenda := [command .advance] }, _, by simp [FaultInv, at1, State.reset], rfl⟩
theorem witness_StepKeepsSeedInvariant : ∃ s t : State, SeedInv s ∧ step s = .next t :=
  ⟨{ State.reset with ctl := .seeding 31, agenda := [.engine default] }, _, by simp [SeedInv, State.reset], rfl⟩
theorem witness_StepKeepsTimerInvariant : ∃ s t : State, TimerInv s ∧ step s = .next t :=
  ⟨{ at1 (.wait .gShow) with tarmed := true, agenda := [.timer] }, _, by simp [TimerInv, at1, State.reset, State.flag],
    rfl⟩
theorem witness_StepKeepsGuessInvariant : ∃ s t : State, GuessInv s ∧ step s = .next t :=
  ⟨{ at1 .gShow with target := 254, agenda := [.engine default] }, _, by simp [GuessInv, at1], rfl⟩
theorem witness_StepKeepsSequenceInvariant : ∃ s t : State, SequenceInv s ∧ LaneBitsInv s ∧
    (∀ b, s.nextAction.1 ≠ .reset b) ∧ step s = .next t :=
  ⟨{ at1 .qVerify with tseq := target7, cseq := capture8, pos := 6, lives := 1, agenda := [.engine default] }, _, by
    refine ⟨?_, ?_, ?_, ?_⟩
    · unfold RecordsUpTo; decide
    · unfold RecordsUpTo; decide
    · rfl
    · constructor <;> decide,
    by unfold LaneBitsInv; decide, (fun _ h => nomatch h), rfl⟩

end Sys2Proof.Tests
end

section
/-! PROOFS. Facts about the model's steps, each said once for the obligations that need it: what a command does, and what
ENGINE's step does state by state. -/

namespace Sys2Proof.Machine

/-! ## The commands (60_exceptions.md R230) -/

/-- A command's own rule: what its arm of `exec` hands to `State.accept`. -/
def commandRule : Instr → State → State
  | .seed, s => if s.seeded then s.raise .reseed else s.goto (.seeding 0)
  | .advance, s => if s.seeded then { s with prng := mix s.prng } else s.raise .unseeded
  | .draw size, s =>
    if !s.seeded then s.raise .unseeded
    else if size = 0 then s.raise .drawZero
    else { s with result := drawValue s.prng (size.setWidth 32) }
  | .ftest f, s => { s with result := zext8 (s.flag f) }
  | .fclr f, s => s.putFlag f false
  | .digits v, s => if Config.digitsMax < v.toNat then s.raise .digitRange else s.emitDigits v
  | .runguess, s => if s.seeded then s.goto .gSetup else s.raise .unseeded
  | .runseq, s => if s.seeded then s.goto .qEntry else s.raise .unseeded

theorem exec_eq_accept (i : Instr) (s : State) : exec i s = .next (s.accept (commandRule i)) := by
  cases i <;> rfl

/-- What each command does when it raises no fault, with the checks it has passed. -/
inductive CommandMove (s : State) : Instr → State → Prop
  | seed (h : s.seeded = false) : CommandMove s .seed { s with ctl := .seeding 0 }
  | advance (p : Word) (h : s.seeded = true) (hp : p = mix s.prng) : CommandMove s .advance { s with prng := p }
  | draw (size : Byte) (h : s.seeded = true) (hsize : size ≠ 0) :
      CommandMove s (.draw size) { s with result := drawValue s.prng (size.setWidth 32) }
  | ftest (f : Flag) : CommandMove s (.ftest f) { s with result := zext8 (s.flag f) }
  | fclr (f : Flag) : CommandMove s (.fclr f) (s.putFlag f false)
  | digits (v : BitVec 16) (h : v.toNat ≤ Config.digitsMax) : CommandMove s (.digits v) (s.emitDigits v)
  | runguess (h : s.seeded = true) : CommandMove s .runguess { s with ctl := .gSetup }
  | runseq (h : s.seeded = true) : CommandMove s .runseq { s with ctl := .qEntry }

/-- A command's rule raises a fault or makes the command's move. -/
theorem commandRule_cases (i : Instr) (s : State) :
    (∃ c, commandRule i s = s.raise c) ∨ CommandMove s i (commandRule i s) := by
  cases i with
  | seed =>
    simp only [commandRule]; split
    case isTrue => exact .inl ⟨.reseed, rfl⟩
    case isFalse h => exact .inr (.seed (Bool.eq_false_iff.mpr h))
  | advance =>
    simp only [commandRule]; split
    case isTrue h => exact .inr (.advance _ h rfl)
    case isFalse => exact .inl ⟨.unseeded, rfl⟩
  | draw size =>
    simp only [commandRule]; split
    case isTrue => exact .inl ⟨.unseeded, rfl⟩
    case isFalse h =>
      split
      case isTrue => exact .inl ⟨.drawZero, rfl⟩
      case isFalse hz => exact .inr (.draw size (by simpa using h) hz)
  | ftest f => exact .inr (.ftest f)
  | fclr f => exact .inr (.fclr f)
  | digits v =>
    simp only [commandRule]; split
    case isTrue => exact .inl ⟨.digitRange, rfl⟩
    case isFalse h => exact .inr (.digits v (Nat.le_of_not_lt h))
  | runguess =>
    simp only [commandRule]; split
    case isTrue h => exact .inr (.runguess h)
    case isFalse => exact .inl ⟨.unseeded, rfl⟩
  | runseq =>
    simp only [commandRule]; split
    case isTrue h => exact .inr (.runseq h)
    case isFalse => exact .inl ⟨.unseeded, rfl⟩

/-! ## ENGINE (10_state.md R22, R26) -/

section Dispatch

variable {policy : CapturePolicy} {inp : Inputs} {s : State}

theorem engineStepUnder_rest (h : s.ctl = .idle ∨ s.ctl = .halted) : engineStepUnder policy inp s = s := by
  rcases h with h | h <;> simp only [engineStepUnder, h]

theorem engineStepUnder_seeding {i : Fin 32} (h : s.ctl = .seeding i) :
    engineStepUnder policy inp s = seedingStep i inp.noise s := by
  simp only [engineStepUnder, h]

theorem engineStepUnder_gSetup (h : s.ctl = .gSetup) : engineStepUnder policy inp s = gSetup s := by
  simp only [engineStepUnder, h]

theorem engineStepUnder_gAwait (h : s.ctl = .gAwait) : engineStepUnder policy inp s = gAwait inp.sw s := by
  simp only [engineStepUnder, h]

theorem engineStepUnder_gShow (h : s.ctl = .gShow) : engineStepUnder policy inp s = gShow s := by
  simp only [engineStepUnder, h]

theorem engineStepUnder_gEnd (h : s.ctl = .gEnd) : engineStepUnder policy inp s = gEnd s := by
  simp only [engineStepUnder, h]

theorem engineStepUnder_qEntry (h : s.ctl = .qEntry) : engineStepUnder policy inp s = qEntry s := by
  simp only [engineStepUnder, h]

theorem engineStepUnder_qPresent (h : s.ctl = .qPresent) : engineStepUnder policy inp s = qPresent s := by
  simp only [engineStepUnder, h]

theorem engineStepUnder_qPresentOff (h : s.ctl = .qPresentOff) : engineStepUnder policy inp s = qPresentOff s := by
  simp only [engineStepUnder, h]

theorem engineStepUnder_qCapInit (h : s.ctl = .qCapInit) : engineStepUnder policy inp s = qCapInit inp.dir s := by
  simp only [engineStepUnder, h]

theorem engineStepUnder_qCapture (h : s.ctl = .qCapture) : engineStepUnder policy inp s = qCapture policy inp.dir s := by
  simp only [engineStepUnder, h]

theorem engineStepUnder_qVerify (h : s.ctl = .qVerify) : engineStepUnder policy inp s = qVerify s := by
  simp only [engineStepUnder, h]

theorem engineStepUnder_qEnd (h : s.ctl = .qEnd) : engineStepUnder policy inp s = qEnd s := by
  simp only [engineStepUnder, h]

theorem engineStepUnder_wait {n : WaitTarget} (h : s.ctl = .wait n) : engineStepUnder policy inp s = waitStep n s := by
  simp only [engineStepUnder, h]

end Dispatch

/-- Every step of ENGINE, with the control state it is taken in and its guard; the resulting state is written out, so
that it is the step's frame too. A drawn value is a variable with its equation, since `mix` is costly to unfold. -/
inductive EngineMove (policy : CapturePolicy) (inp : Inputs) (s : State) : State → Prop
  /-- ENGINE has no step in IDLE and HALTED (log 6). -/
  | rest (hc : s.ctl = .idle ∨ s.ctl = .halted) : EngineMove policy inp s s
  | sample (i : Fin 32) (hc : s.ctl = .seeding i) (hi : i.val + 1 < 32) :
      EngineMove policy inp s
        { s with prng := setWordBit s.prng i.val inp.noise, ctl := .seeding ⟨i.val + 1, hi⟩ }
  | lastSample (i : Fin 32) (hc : s.ctl = .seeding i) (hi : ¬ i.val + 1 < 32) :
      EngineMove policy inp s
        { s with prng := setWordBit s.prng i.val inp.noise, seeded := true, ctl := .idle }
  | guessSetup (p : Word) (v : Byte) (hc : s.ctl = .gSetup) (hp : p = mix s.prng)
      (hv : v = drawValue p Config.guessRange) :
      EngineMove policy inp s
        { s with prng := p, target := v, ctl := .gAwait, trace := s.trace ++ [.extAll] ++ [.disp .prompt] }
  | guessPoll (hc : s.ctl = .gAwait) (hf : s.flag .confirm = false) :
      EngineMove policy inp s { s with capt := inp.sw }
  | guessConfirm (hc : s.ctl = .gAwait) (hf : s.flag .confirm = true) :
      EngineMove policy inp s
        { s.putFlag .confirm false with capt := inp.sw, tarmed := true, ctl := .wait .gShow,
                                        trace := s.trace ++ [.tstart .check] }
  | guessWin (hc : s.ctl = .gShow) (hcapt : s.capt = s.target) :
      EngineMove policy inp s
        { s with outc := true, tarmed := true, ctl := .wait .gEnd,
                 trace := s.trace ++ [.disp .win] ++ [.tstart .result] }
  | guessLose (hc : s.ctl = .gShow) (hcapt : s.capt ≠ s.target) :
      EngineMove policy inp s
        { s with outc := false, tarmed := true, ctl := .wait .gEnd,
                 trace := s.trace ++ [.disp .lose] ++ ((digitsOf (s.capt.setWidth 16)).map fun d => .disp (.digit d)) ++
                   [.disp (.value s.target)] ++ [.tstart .result] }
  | gameEnd (hc : s.ctl = .gEnd ∨ s.ctl = .qEnd) :
      EngineMove policy inp s { s with result := zext8 s.outc, ctl := .idle }
  | entry (hc : s.ctl = .qEntry) :
      EngineMove policy inp s
        { s with tseq := clearLanes, cseq := clearLanes, lives := Config.lives0, stepNo := 0, pos := 0,
                 ctl := .qPresent,
                 trace := s.trace ++ [.extAll] ++ [.disp .lives] ++
                   ((digitsOf (Config.lives0.setWidth 16)).map fun d => .disp (.digit d)) }
  | present (p : Word) (l : Lane) (hc : s.ctl = .qPresent) (hp : p = mix s.prng)
      (hl : l = Fin.ofNat 4 (drawValue p Config.lanes).toNat) :
      EngineMove policy inp s
        { s with prng := p, tseq := markLane s.tseq l s.stepNo, curl := l, tarmed := true, ctl := .wait .qPresentOff,
                 trace := s.trace ++ [.ind (Config.laneInd l) true] ++ [.tstart .presentOn] }
  | presentOff (hc : s.ctl = .qPresentOff) (hn : s.stepNo + 1 ≠ Config.seqLen) :
      EngineMove policy inp s
        { s with stepNo := s.stepNo + 1, tarmed := true, ctl := .wait .qPresent,
                 trace := s.trace ++ [.ind (Config.laneInd s.curl) false] ++ [.tstart .presentGap] }
  | presentLastOff (hc : s.ctl = .qPresentOff) (hn : s.stepNo + 1 = Config.seqLen) :
      EngineMove policy inp s
        { s with stepNo := s.stepNo + 1, tarmed := true, ctl := .wait .qCapInit,
                 trace := s.trace ++ [.ind (Config.laneInd s.curl) false] ++ [.tstart .presentGap] }
  | captureInit (hc : s.ctl = .qCapInit) :
      EngineMove policy inp s { s with base := inp.dir, ctl := .qCapture }
  | captureNothing (hc : s.ctl = .qCapture) (hev : (detect policy s.base inp.dir).1 = none) :
      EngineMove policy inp s
        { s with base := inp.dir, ctl := if s.pos = Config.seqLen then .qVerify else .qCapture }
  | captureEvent (l : Lane) (hc : s.ctl = .qCapture) (hev : (detect policy s.base inp.dir).1 = some l) :
      EngineMove policy inp s
        { s with base := inp.dir, cseq := markLane s.cseq l s.pos, pos := s.pos + 1,
                 ctl := if s.pos + 1 = Config.seqLen then .qVerify else .qCapture,
                 trace := s.trace ++ [.ind (Config.laneInd l) true] }
  | verifyWin (hc : s.ctl = .qVerify) (heq : lanesEqual s.tseq s.cseq = true) :
      EngineMove policy inp s
        { s with outc := true, tarmed := true, ctl := .wait .qEnd,
                 trace := s.trace ++ [.extAll] ++ [.disp .win] ++ [.tstart .result] }
  | verifyRetry (hc : s.ctl = .qVerify) (heq : lanesEqual s.tseq s.cseq = false)
      (hlives : 0 < (s.lives - 1).toNat) :
      EngineMove policy inp s
        { s with lives := s.lives - 1, cseq := clearLanes, pos := 0, ctl := .qCapInit,
                 trace := s.trace ++ [.extAll] ++ [.disp .lives] ++
                   ((digitsOf ((s.lives - 1).setWidth 16)).map fun d => .disp (.digit d)) }
  | verifyLose (hc : s.ctl = .qVerify) (heq : lanesEqual s.tseq s.cseq = false)
      (hlives : ¬ 0 < (s.lives - 1).toNat) :
      EngineMove policy inp s
        { s with lives := s.lives - 1, cseq := clearLanes, pos := 0, outc := false, tarmed := true,
                 ctl := .wait .qEnd,
                 trace := s.trace ++ [.extAll] ++ [.disp .lives] ++
                   ((digitsOf ((s.lives - 1).setWidth 16)).map fun d => .disp (.digit d)) ++ [.disp .lose] ++
                   [.tstart .result] }
  | waitSpin (n : WaitTarget) (hc : s.ctl = .wait n) (hf : s.flag .timer = false) : EngineMove policy inp s s
  | waitEnd (n : WaitTarget) (hc : s.ctl = .wait n) (hf : s.flag .timer = true) :
      EngineMove policy inp s { s.putFlag .timer false with ctl := waitTargetCtl n }

theorem emitDigits_eq (s : State) (v : BitVec 16) :
    s.emitDigits v = { s with trace := s.trace ++ (digitsOf v).map fun d => .disp (.digit d) } := rfl

/-- G_SETUP, given what its draw gives. -/
theorem gSetup_of_nextDraw {s : State} {v : Byte} {p : Word}
    (h : nextDraw (s.emit .extAll) Config.guessRange = (v, { s.emit .extAll with prng := p })) :
    gSetup s = { s with prng := p, target := v, ctl := .gAwait, trace := s.trace ++ [.extAll] ++ [.disp .prompt] } := by
  simp only [gSetup, h]
  rfl

/-- Q_PRESENT, given what its draw gives. -/
theorem qPresent_of_nextDraw {s : State} {v : Byte} {p : Word}
    (h : nextDraw s Config.lanes = (v, { s with prng := p })) :
    qPresent s =
      { s with prng := p, tseq := markLane s.tseq (Fin.ofNat 4 v.toNat) s.stepNo, curl := Fin.ofNat 4 v.toNat,
               tarmed := true, ctl := .wait .qPresentOff,
               trace := s.trace ++ [.ind (Config.laneInd (Fin.ofNat 4 v.toNat)) true] ++ [.tstart .presentOn] } := by
  simp only [qPresent, h]
  rfl

/-- Q_CAPTURE without an event moves only the baseline. -/
theorem qCapture_none {policy : CapturePolicy} {dir : BitVec 4} {s : State} (hc : s.ctl = .qCapture)
    (hev : (detect policy s.base dir).1 = none) :
    qCapture policy dir s = { s with base := dir, ctl := if s.pos = Config.seqLen then .qVerify else .qCapture } := by
  simp only [qCapture, hev, captureEvent, detect_snd]
  split <;> simp [State.goto, hc]

/-- Q_CAPTURE with an event shows it and records it at the current position. -/
theorem qCapture_some {policy : CapturePolicy} {dir : BitVec 4} {s : State} {l : Lane} (hc : s.ctl = .qCapture)
    (hev : (detect policy s.base dir).1 = some l) :
    qCapture policy dir s =
      { s with base := dir, cseq := markLane s.cseq l s.pos, pos := s.pos + 1,
               ctl := if s.pos + 1 = Config.seqLen then .qVerify else .qCapture,
               trace := s.trace ++ [.ind (Config.laneInd l) true] } := by
  simp only [qCapture, hev, captureEvent, detect_snd]
  split <;> simp_all [State.goto, State.emit]

theorem showLives_eq (s : State) :
    showLives s = { s with trace := s.trace ++ [.disp .lives] ++
      ((digitsOf (s.lives.setWidth 16)).map fun d => .disp (.digit d)) } := rfl

section Verify

variable {s : State}

theorem qVerify_win (heq : lanesEqual s.tseq s.cseq = true) :
    qVerify s =
      { s with outc := true, tarmed := true, ctl := .wait .qEnd,
               trace := s.trace ++ [.extAll] ++ [.disp .win] ++ [.tstart .result] } := by
  simp [qVerify, heq, State.armWait, State.emit]

theorem qVerify_retry (heq : lanesEqual s.tseq s.cseq = false) (hlives : 0 < (s.lives - 1).toNat) :
    qVerify s =
      { s with lives := s.lives - 1, cseq := clearLanes, pos := 0, ctl := .qCapInit,
               trace := s.trace ++ [.extAll] ++ [.disp .lives] ++
                 ((digitsOf ((s.lives - 1).setWidth 16)).map fun d => .disp (.digit d)) } := by
  simp only [qVerify, State.emit_tseq, State.emit_cseq, heq, showLives_eq, State.emit_lives, hlives]
  rfl

theorem qVerify_lose (heq : lanesEqual s.tseq s.cseq = false) (hlives : ¬ 0 < (s.lives - 1).toNat) :
    qVerify s =
      { s with lives := s.lives - 1, cseq := clearLanes, pos := 0, outc := false, tarmed := true,
               ctl := .wait .qEnd,
               trace := s.trace ++ [.extAll] ++ [.disp .lives] ++
                 ((digitsOf ((s.lives - 1).setWidth 16)).map fun d => .disp (.digit d)) ++ [.disp .lose] ++
                 [.tstart .result] } := by
  simp only [qVerify, State.emit_tseq, State.emit_cseq, heq, showLives_eq, State.emit_lives, hlives]
  rfl

end Verify

section Moves

variable {policy : CapturePolicy} {inp : Inputs} {s t : State}

/-- A move is the step ENGINE takes. -/
theorem EngineMove.step_eq (m : EngineMove policy inp s t) : engineStepUnder policy inp s = t := by
  cases m with
  | rest hc => exact engineStepUnder_rest hc
  | sample i hc hi => rw [engineStepUnder_seeding hc]; exact dif_pos hi
  | lastSample i hc hi => rw [engineStepUnder_seeding hc]; exact dif_neg hi
  | guessSetup p v hc hp hv => subst hv hp; rw [engineStepUnder_gSetup hc, gSetup_of_nextDraw rfl, State.emit_prng]
  | guessPoll hc hf => rw [engineStepUnder_gAwait hc]; exact if_neg (Bool.eq_false_iff.mp hf)
  | guessConfirm hc hf => rw [engineStepUnder_gAwait hc]; exact if_pos hf
  | guessWin hc hcapt => rw [engineStepUnder_gShow hc, gShow, if_pos hcapt]; rfl
  | guessLose hc hcapt => rw [engineStepUnder_gShow hc, gShow, if_neg hcapt, emitDigits_eq]; rfl
  | gameEnd hc =>
    rcases hc with hc | hc
    · rw [engineStepUnder_gEnd hc, gEnd]
    · rw [engineStepUnder_qEnd hc, qEnd]
  | entry hc => rw [engineStepUnder_qEntry hc, qEntry, showLives_eq]; rfl
  | present p l hc hp hl => subst hl hp; rw [engineStepUnder_qPresent hc, qPresent_of_nextDraw rfl]
  | presentOff hc hn => rw [engineStepUnder_qPresentOff hc]; exact if_neg hn
  | presentLastOff hc hn => rw [engineStepUnder_qPresentOff hc]; exact if_pos hn
  | captureInit hc => rw [engineStepUnder_qCapInit hc, qCapInit]
  | captureNothing hc hev => rw [engineStepUnder_qCapture hc, qCapture_none hc hev]
  | captureEvent l hc hev => rw [engineStepUnder_qCapture hc, qCapture_some hc hev]
  | verifyWin hc heq => rw [engineStepUnder_qVerify hc, qVerify_win heq]
  | verifyRetry hc heq hlives => rw [engineStepUnder_qVerify hc, qVerify_retry heq hlives]
  | verifyLose hc heq hlives => rw [engineStepUnder_qVerify hc, qVerify_lose heq hlives]
  | waitSpin n hc hf => rw [engineStepUnder_wait hc]; exact if_neg (Bool.eq_false_iff.mp hf)
  | waitEnd n hc hf => rw [engineStepUnder_wait hc]; exact if_pos hf

/-- In every state ENGINE has a move. -/
theorem exists_engineMove (policy : CapturePolicy) (inp : Inputs) (s : State) : ∃ t, EngineMove policy inp s t := by
  cases hc : s.ctl with
  | idle => exact ⟨_, .rest (.inl hc)⟩
  | halted => exact ⟨_, .rest (.inr hc)⟩
  | seeding i =>
    by_cases hi : i.val + 1 < 32
    · exact ⟨_, .sample i hc hi⟩
    · exact ⟨_, .lastSample i hc hi⟩
  | gSetup => exact ⟨_, .guessSetup _ _ hc rfl rfl⟩
  | gAwait =>
    cases hf : s.flag .confirm with
    | true => exact ⟨_, .guessConfirm hc hf⟩
    | false => exact ⟨_, .guessPoll hc hf⟩
  | gShow =>
    by_cases h : s.capt = s.target
    · exact ⟨_, .guessWin hc h⟩
    · exact ⟨_, .guessLose hc h⟩
  | gEnd => exact ⟨_, .gameEnd (.inl hc)⟩
  | qEntry => exact ⟨_, .entry hc⟩
  | qPresent => exact ⟨_, .present _ _ hc rfl rfl⟩
  | qPresentOff =>
    by_cases hn : s.stepNo + 1 = Config.seqLen
    · exact ⟨_, .presentLastOff hc hn⟩
    · exact ⟨_, .presentOff hc hn⟩
  | qCapInit => exact ⟨_, .captureInit hc⟩
  | qCapture =>
    cases hev : (detect policy s.base inp.dir).1 with
    | none => exact ⟨_, .captureNothing hc hev⟩
    | some l => exact ⟨_, .captureEvent l hc hev⟩
  | qVerify =>
    cases heq : lanesEqual s.tseq s.cseq with
    | true => exact ⟨_, .verifyWin hc heq⟩
    | false =>
      by_cases hl : 0 < (s.lives - 1).toNat
      · exact ⟨_, .verifyRetry hc heq hl⟩
      · exact ⟨_, .verifyLose hc heq hl⟩
  | qEnd => exact ⟨_, .gameEnd (.inr hc)⟩
  | wait n =>
    cases hf : s.flag .timer with
    | true => exact ⟨_, .waitEnd n hc hf⟩
    | false => exact ⟨_, .waitSpin n hc hf⟩

/-- ENGINE's step is one of its moves. -/
theorem engineStepUnder_move (policy : CapturePolicy) (inp : Inputs) (s : State) :
    EngineMove policy inp s (engineStepUnder policy inp s) := by
  obtain ⟨t, m⟩ := exists_engineMove policy inp s
  rwa [m.step_eq]

/-! ### What ENGINE leaves unchanged -/

/-- ENGINE never writes FAULT (60_exceptions.md R238). -/
theorem EngineMove.fault_eq (m : EngineMove policy inp s t) : t.fault = s.fault := by cases m <;> rfl

theorem EngineMove.fcause_eq (m : EngineMove policy inp s t) : t.fcause = s.fcause := by cases m <;> rfl

/-- ENGINE neither enters nor leaves HALTED (60_exceptions.md R238, R240). -/
theorem EngineMove.halted_iff (m : EngineMove policy inp s t) : t.ctl = .halted ↔ s.ctl = .halted := by
  cases m with
  | rest | waitSpin => rfl
  | gameEnd hc => rcases hc with hc | hc <;> simp [hc]
  | captureNothing hc => split <;> simp [hc]
  | captureEvent l hc => split <;> simp [hc]
  | waitEnd n hc => simp [hc, waitTargetCtl_ne n]
  | _ => simp [*]

/-- Only the last step of seeding writes SEEDED, and it sets it (10_state.md R28). -/
theorem EngineMove.seeded_of_seeded (m : EngineMove policy inp s t) (h : s.seeded = true) : t.seeded = true := by
  cases m with
  | lastSample => rfl
  | _ => exact h

/-- Only the last step of a game writes RESULT (10_state.md R29). -/
theorem EngineMove.result_eq_or_gameEnd (m : EngineMove policy inp s t) :
    t.result = s.result ∨ s.ctl = .gEnd ∨ s.ctl = .qEnd := by
  cases m with
  | gameEnd hc => exact .inr hc
  | _ => exact .inl rfl

/-- ENGINE only appends to the trace (00_scope.md R9). -/
theorem EngineMove.trace_appends (m : EngineMove policy inp s t) : ∃ es, t.trace = s.trace ++ es := by
  cases m <;> simp [List.append_assoc]

/-! ### The flags ENGINE does not know -/

/-- A flag other than CONFIRM and TIMER may be written before the move or after it (41_event_flags.md R138): no guard
reads it and no move writes it. -/
theorem EngineMove.putFlag (m : EngineMove policy inp s t) {f : Flag} (hconfirm : f ≠ .confirm) (htimer : f ≠ .timer)
    (b : Bool) : EngineMove policy inp (s.putFlag f b) (t.putFlag f b) := by
  have confirm_unread : (s.putFlag f b).flag .confirm = s.flag .confirm := s.flag_putFlag_of_ne hconfirm.symm b
  have timer_unread : (s.putFlag f b).flag .timer = s.flag .timer := s.flag_putFlag_of_ne htimer.symm b
  have ctl_kept : (s.putFlag f b).ctl = s.ctl := rfl
  cases m with
  | rest hc => exact .rest hc
  | sample i hc hi => exact .sample i (ctl_kept.trans hc) hi
  | lastSample i hc hi => exact .lastSample i (ctl_kept.trans hc) hi
  | guessSetup p v hc hp hv => exact .guessSetup p v (ctl_kept.trans hc) hp hv
  | guessPoll hc hf => exact .guessPoll (ctl_kept.trans hc) (confirm_unread.trans hf)
  | guessConfirm hc hf =>
    have m := EngineMove.guessConfirm (policy := policy) (inp := inp) (ctl_kept.trans hc) (confirm_unread.trans hf)
    rw [s.putFlag_comm hconfirm] at m
    exact m
  | guessWin hc h => exact .guessWin (ctl_kept.trans hc) h
  | guessLose hc h => exact .guessLose (ctl_kept.trans hc) h
  | gameEnd hc => exact .gameEnd (s := s.putFlag f b) hc
  | entry hc => exact .entry (ctl_kept.trans hc)
  | present p l hc hp hl => exact .present p l (ctl_kept.trans hc) hp hl
  | presentOff hc hn => exact .presentOff (ctl_kept.trans hc) hn
  | presentLastOff hc hn => exact .presentLastOff (ctl_kept.trans hc) hn
  | captureInit hc => exact .captureInit (ctl_kept.trans hc)
  | captureNothing hc hev => exact .captureNothing (ctl_kept.trans hc) hev
  | captureEvent l hc hev => exact .captureEvent l (ctl_kept.trans hc) hev
  | verifyWin hc heq => exact .verifyWin (ctl_kept.trans hc) heq
  | verifyRetry hc heq hl => exact .verifyRetry (ctl_kept.trans hc) heq hl
  | verifyLose hc heq hl => exact .verifyLose (ctl_kept.trans hc) heq hl
  | waitSpin n hc hf => exact .waitSpin n (ctl_kept.trans hc) (timer_unread.trans hf)
  | waitEnd n hc hf =>
    have m := EngineMove.waitEnd (policy := policy) (inp := inp) n (ctl_kept.trans hc) (timer_unread.trans hf)
    rw [s.putFlag_comm htimer] at m
    exact m

theorem engineStepUnder_putFlag (policy : CapturePolicy) (inp : Inputs) (s : State) {f : Flag} (hconfirm : f ≠ .confirm)
    (htimer : f ≠ .timer) (b : Bool) :
    engineStepUnder policy inp (s.putFlag f b) = (engineStepUnder policy inp s).putFlag f b :=
  ((engineStepUnder_move policy inp s).putFlag hconfirm htimer b).step_eq

end Moves

end Sys2Proof.Machine
end

section
/-! PROOFS. What one agent's step does (10_state.md R20), as one relation that every invariant splits on, and how an
invariant of the agents' steps becomes an invariant of `step`. -/

namespace Sys2Proof.Machine

/-- Every step of every agent, with its guard. HOST's write to CMD raises a fault or makes the command's move. -/
inductive AgentMove (s : State) : Action → State → Prop
  /-- HOST's access that touches only what the model keeps of HOST (logs 7 and 15). -/
  | host (a : Action) (stuck : Bool) (rdata : Option Word) (ha : a.isHost = true) :
      AgentMove s a { s with hostStuck := stuck, rdata := rdata }
  | fault (w : Word) (c : FaultCause) (hc : s.ctl ≠ .halted) : AgentMove s (.hostWrite 0x0 4 w) (s.raise c)
  | command (w : Word) (i : Instr) (t : State) (hc : s.ctl = .idle) (hd : decode w = .ok i) (m : CommandMove s i t) :
      AgentMove s (.hostWrite 0x0 4 w) t
  | engine (inp : Inputs) (t : State) (m : EngineMove Config.capturePolicy inp s t) : AgentMove s (.engine inp) t
  | source (f : Source) : AgentMove s (.src f) (s.putFlag (sourceFlag f) true)
  | timerFires (h : s.tarmed = true) : AgentMove s .timer { s.putFlag .timer true with tarmed := false }
  | timerRests (h : s.tarmed = false) : AgentMove s .timer s
  | reset (restartsHost : Bool) : AgentMove s (.reset restartsHost) (s.platformReset restartsHost)

section

variable {s t : State}

/-- A write to CMD is ignored in HALTED, raises a fault, or makes the move of the command it decodes to. -/
theorem writeCmd_move {w : Word} (h : writeCmd w s = .next t) : AgentMove s (.hostWrite 0x0 4 w) t := by
  have ignored : AgentMove s (.hostWrite 0x0 4 w) s := .host _ s.hostStuck s.rdata rfl
  rcases writeCmd_cases w s with ⟨-, hw⟩ | ⟨hc, -, hw⟩ | ⟨hc, i, hd, hw⟩
  · cases hw.symm.trans h
    exact ignored
  · cases hw.symm.trans h
    exact .fault w .illegal hc
  · rw [exec_eq_accept] at hw
    cases hw.symm.trans h
    rcases accept_cases s (commandRule i) with ⟨-, he⟩ | ⟨hi, he⟩ | ⟨-, -, he⟩
    · rw [he]
      exact ignored
    · rw [he]
      rcases commandRule_cases i s with ⟨c, hr⟩ | m
      · rw [hr]
        exact .fault w c hc
      · exact .command w i _ hi hd m
    · rw [he]
      exact .fault w .busy hc

theorem hostReadStep_move (off : BitVec 4) (n : Nat) : AgentMove s (.hostRead off n) (hostReadStep off n s) := by
  unfold hostReadStep
  split
  · exact .host _ s.hostStuck (some (readRegister off s)) rfl
  · exact .host _ true s.rdata rfl

theorem timerStep_move : AgentMove s .timer (timerStep s) := by
  unfold timerStep
  split
  case isTrue h => exact .timerFires h
  case isFalse h => exact .timerRests (Bool.eq_false_iff.mpr h)

/-- One agent's step is one of its moves. -/
theorem act_move {a : Action} (h : act a s = .next t) : AgentMove s a t := by
  rcases act_cases h with ⟨ha, -, rfl⟩ | ⟨off, n, v, rfl, -, hw⟩ | ⟨off, n, rfl, -, rfl⟩ | ⟨inp, rfl, rfl⟩ | ⟨f, rfl, rfl⟩ |
    ⟨rfl, rfl⟩ | ⟨b, rfl, rfl⟩
  · exact .host a t.hostStuck t.rdata ha
  · rcases hw with ⟨-, rfl⟩ | ⟨-, -, rfl⟩ | ⟨rfl, rfl, hw⟩
    · exact .host _ true s.rdata rfl
    · exact .host _ t.hostStuck t.rdata rfl
    · exact writeCmd_move hw
  · exact hostReadStep_move off n
  · exact .engine inp _ (engineStepUnder_move _ inp s)
  · exact .source f
  · exact timerStep_move
  · exact .reset b

/-! ## No step stops the model (log 14) -/

theorem exists_writeCmd_next (w : Word) (s : State) : ∃ t, writeCmd w s = .next t := by
  rcases writeCmd_cases w s with ⟨-, hw⟩ | ⟨-, -, hw⟩ | ⟨-, i, -, hw⟩
  · exact ⟨_, hw⟩
  · exact ⟨_, hw⟩
  · exact ⟨_, hw.trans (exec_eq_accept i s)⟩

theorem exists_hostWriteStep_next (off : BitVec 4) (n : Nat) (v : Word) (s : State) :
    ∃ t, hostWriteStep off n v s = .next t := by
  unfold hostWriteStep
  split
  · split
    · exact exists_writeCmd_next v s
    · exact ⟨_, rfl⟩
  · exact ⟨_, rfl⟩

theorem exists_act_next (a : Action) (s : State) : ∃ t, act a s = .next t := by
  unfold act
  split
  · exact ⟨_, rfl⟩
  · cases a with
    | hostWrite off n v => exact exists_hostWriteStep_next off n v s
    | hostRead | engine | src | timer | reset => exact ⟨_, rfl⟩

/-! ## From the agents' steps to `step` -/

/-- An invariant that does not read the schedule, and that every agent's step keeps, is kept by `step`. -/
theorem step_keeps {Inv : State → Prop}
    (hsched : ∀ (s : State) (agenda : List Action) (draws : Nat), Inv s → Inv { s with agenda := agenda, draws := draws })
    (hmove : ∀ (s t : State) (a : Action), Inv s → AgentMove s a t → Inv t) (hs : Inv s) (h : step s = .next t) :
    Inv t := by
  have hnext : Inv s.nextAction.2 := by
    rw [nextAction_snd]
    exact hsched s _ _ hs
  exact hmove _ t _ hnext (act_move h)

end

/-! ## The commands' frames -/

section

variable {s t : State} {i : Instr}

theorem CommandMove.fault_eq (m : CommandMove s i t) : t.fault = s.fault := by cases m <;> rfl

theorem CommandMove.fcause_eq (m : CommandMove s i t) : t.fcause = s.fcause := by cases m <;> rfl

theorem CommandMove.seeded_eq (m : CommandMove s i t) : t.seeded = s.seeded := by cases m <;> rfl

theorem CommandMove.tarmed_eq (m : CommandMove s i t) : t.tarmed = s.tarmed := by cases m <;> rfl

/-- A command runs in IDLE, and starts a game or seeding, or stays. -/
theorem CommandMove.ctl_cases (m : CommandMove s i t) :
    t.ctl = s.ctl ∨ t.ctl = .seeding 0 ∨ t.ctl = .gSetup ∨ t.ctl = .qEntry := by
  cases m with
  | seed => exact .inr (.inl rfl)
  | runguess => exact .inr (.inr (.inl rfl))
  | runseq => exact .inr (.inr (.inr rfl))
  | advance | draw | ftest | fclr | digits => exact .inl rfl

/-- Only DRAW and FTEST write RESULT (10_state.md R29). -/
theorem CommandMove.result_eq_or_draw_or_ftest (m : CommandMove s i t) :
    t.result = s.result ∨ (∃ size, i = .draw size) ∨ ∃ f, i = .ftest f := by
  cases m with
  | draw size => exact .inr (.inl ⟨size, rfl⟩)
  | ftest f => exact .inr (.inr ⟨f, rfl⟩)
  | seed | advance | fclr | digits | runguess | runseq => exact .inl rfl

/-- Only DIGITS writes the trace, and it appends. -/
theorem CommandMove.trace_appends (m : CommandMove s i t) : ∃ es, t.trace = s.trace ++ es := by
  cases m with
  | digits v => exact ⟨_, rfl⟩
  | seed | advance | draw | ftest | fclr | runguess | runseq => exact ⟨[], s.trace.append_nil.symm⟩

/-- A command sets no flag (41_event_flags.md R133). -/
theorem CommandMove.flag_of_flag (m : CommandMove s i t) (f : Flag) (h : t.flag f = true) : s.flag f = true := by
  cases m with
  | fclr g =>
    rw [State.flag_putFlag] at h
    split at h
    · cases h
    · exact h
  | seed | advance | draw | ftest | digits | runguess | runseq => exact h

end

end Sys2Proof.Machine
end

section
/-! PROOFS. The timed wait (10_state.md R34, 41_event_flags.md R135, R139): what each agent's step does to TARMED and TIMER's
flag, by whether ENGINE waits, has halted, or does neither. -/

namespace Sys2Proof.Safety

open Sys2Proof.Machine

/-- ENGINE neither waits nor has halted: no TStart is outstanding there. -/
def OutsideWait (c : Ctl) : Prop := c ≠ .halted ∧ ∀ n, c ≠ .wait n

theorem halted_or_wait_or_outsideWait (c : Ctl) : c = .halted ∨ (∃ n, c = .wait n) ∨ OutsideWait c := by
  cases c with
  | halted => exact .inl rfl
  | wait n => exact .inr (.inl ⟨n, rfl⟩)
  | _ => simp [OutsideWait]

section

variable {s t : State}

theorem timerInv_halted (h : s.ctl = .halted) : TimerInv s ↔ ¬(s.tarmed = true ∧ s.flag .timer = true) := by
  simp only [TimerInv, h]

theorem timerInv_wait {n : WaitTarget} (h : s.ctl = .wait n) : TimerInv s ↔ s.tarmed = !(s.flag .timer) := by
  simp only [TimerInv, h]

theorem timerInv_outsideWait (h : OutsideWait s.ctl) :
    TimerInv s ↔ s.tarmed = false ∧ s.flag .timer = false := by
  obtain ⟨not_halted, not_wait⟩ := h
  unfold TimerInv
  split
  case h_1 n hc => exact absurd hc (not_wait n)
  case h_2 hc => exact absurd hc not_halted
  all_goals rfl

/-- TimerInv reads only `ctl`, TARMED and TIMER's flag. -/
theorem TimerInv.congr (hs : TimerInv s) (hc : t.ctl = s.ctl) (harmed : t.tarmed = s.tarmed)
    (hflag : t.flag .timer = s.flag .timer) : TimerInv t := by
  unfold TimerInv
  rw [hc, harmed, hflag]
  exact hs

/-- Nowhere are TARMED and TIMER's flag both 1. -/
theorem TimerInv.not_both (hs : TimerInv s) : ¬(s.tarmed = true ∧ s.flag .timer = true) := by
  rcases halted_or_wait_or_outsideWait s.ctl with hc | ⟨n, hc⟩ | hc
  · exact (timerInv_halted hc).mp hs
  · simp [(timerInv_wait hc).mp hs]
  · simp [(timerInv_outsideWait hc).mp hs]

/-- What ENGINE's step does to the timed wait: nothing, arm one, or use up the event that ends it. -/
inductive WaitMove (s t : State) : Prop
  | rest (h : t = s)
  | goesOn (hs : OutsideWait s.ctl) (ht : OutsideWait t.ctl) (harmed : t.tarmed = s.tarmed)
      (hflag : t.flag .timer = s.flag .timer)
  | arms (n : WaitTarget) (hs : OutsideWait s.ctl) (ht : t.ctl = .wait n) (harmed : t.tarmed = true)
      (hflag : t.flag .timer = s.flag .timer)
  | ends (n : WaitTarget) (hs : s.ctl = .wait n) (hset : s.flag .timer = true) (ht : OutsideWait t.ctl)
      (harmed : t.tarmed = s.tarmed) (hflag : t.flag .timer = false)

theorem engineMove_waitMove {policy : CapturePolicy} {inp : Inputs} (m : EngineMove policy inp s t) : WaitMove s t := by
  cases m with
  | rest | waitSpin => exact .rest rfl
  | guessConfirm hc =>
    exact .arms .gShow (by simp [hc, OutsideWait]) rfl rfl (s.flag_putFlag_of_ne (f := .confirm) (by decide) false)
  | guessWin hc | guessLose hc => exact .arms .gEnd (by simp [hc, OutsideWait]) rfl rfl rfl
  | present _ _ hc => exact .arms .qPresentOff (by simp [hc, OutsideWait]) rfl rfl rfl
  | presentOff hc => exact .arms .qPresent (by simp [hc, OutsideWait]) rfl rfl rfl
  | presentLastOff hc => exact .arms .qCapInit (by simp [hc, OutsideWait]) rfl rfl rfl
  | verifyWin hc | verifyLose hc => exact .arms .qEnd (by simp [hc, OutsideWait]) rfl rfl rfl
  | waitEnd n hc hf =>
    obtain ⟨not_halted, -, not_wait⟩ := waitTargetCtl_ne n
    exact .ends n hc hf ⟨not_halted, not_wait⟩ rfl (s.flag_putFlag_self .timer false)
  | gameEnd hc => rcases hc with hc | hc <;> exact .goesOn (by simp [hc, OutsideWait]) (by simp [OutsideWait]) rfl rfl
  | captureNothing hc | captureEvent _ hc =>
    refine .goesOn (by simp [hc, OutsideWait]) ?_ rfl rfl
    dsimp only
    split <;> simp [OutsideWait]
  | guessPoll hc => exact .goesOn (by simp [hc, OutsideWait]) (by simp [hc, OutsideWait]) rfl rfl
  | sample _ hc | lastSample _ hc | guessSetup _ _ hc | entry hc | captureInit hc | verifyRetry hc =>
    exact .goesOn (by simp [hc, OutsideWait]) (by simp [OutsideWait]) rfl rfl

theorem TimerInv.of_waitMove (hs : TimerInv s) (m : WaitMove s t) : TimerInv t := by
  cases m with
  | rest h => exact h ▸ hs
  | goesOn hsc htc harmed hflag =>
    rw [timerInv_outsideWait htc, harmed, hflag]
    exact (timerInv_outsideWait hsc).mp hs
  | arms n hsc htc harmed hflag =>
    have idle_timer := (timerInv_outsideWait hsc).mp hs
    simp [timerInv_wait htc, harmed, hflag, idle_timer]
  | ends n hsc hset htc harmed hflag =>
    have disarmed := (timerInv_wait hsc).mp hs
    simp [timerInv_outsideWait htc, harmed, hflag, disarmed, hset]

theorem TimerInv.of_commandMove {i : Instr} (hs : TimerInv s) (hc : s.ctl = .idle) (m : CommandMove s i t) :
    TimerInv t := by
  obtain ⟨harmed, hflag⟩ := (timerInv_outsideWait (by simp [hc, OutsideWait])).mp hs
  have outside : OutsideWait t.ctl := by
    rcases m.ctl_cases with h | h | h | h <;> simp [h, hc, OutsideWait]
  have unset : t.flag .timer = false :=
    Bool.eq_false_iff.mpr fun hset => absurd (m.flag_of_flag .timer hset) (by simp [hflag])
  exact (timerInv_outsideWait outside).mpr ⟨m.tarmed_eq.trans harmed, unset⟩

/-- TIMER's step hands the wait over from TARMED to TIMER's flag. -/
theorem TimerInv.of_timer (hs : TimerInv s) (armed : s.tarmed = true) (hctl : t.ctl = s.ctl) (disarmed : t.tarmed = false)
    (hset : t.flag .timer = true) : TimerInv t := by
  rcases halted_or_wait_or_outsideWait s.ctl with hc | ⟨n, hc⟩ | hc
  · simp [timerInv_halted (hctl.trans hc), disarmed]
  · simp [timerInv_wait (hctl.trans hc), disarmed, hset]
  · simp [(timerInv_outsideWait hc).mp hs] at armed

theorem sourceFlag_ne_timer (f : Source) : sourceFlag f ≠ .timer := by cases f <;> decide

theorem timerInv_platformReset (s : State) (b : Bool) : TimerInv (s.platformReset b) :=
  (timerInv_outsideWait (by simp [OutsideWait, State.reset])).mpr ⟨rfl, rfl⟩

theorem TimerInv.of_agentMove {a : Action} (hs : TimerInv s) (m : AgentMove s a t) : TimerInv t := by
  cases m with
  | host | timerRests => exact hs.congr rfl rfl rfl
  | fault _ c => exact (timerInv_halted rfl).mpr hs.not_both
  | command _ _ _ hc _ m => exact hs.of_commandMove hc m
  | engine _ _ m => exact hs.of_waitMove (engineMove_waitMove m)
  | source f => exact hs.congr rfl rfl (s.flag_putFlag_of_ne (sourceFlag_ne_timer f).symm true)
  | timerFires h => exact hs.of_timer h rfl rfl (s.flag_putFlag_self .timer true)
  | reset b => exact timerInv_platformReset s b

end

end Sys2Proof.Safety
end

section
/-! PROOFS. FAULT, FCAUSE and HALTED (10_state.md R33, 60_exceptions.md R231, R238). -/

namespace Sys2Proof.Safety

open Sys2Proof.Machine

variable {s t : State}

/-- FaultInv reads only FAULT, FCAUSE and whether `ctl` is HALTED. -/
theorem FaultInv.congr (hs : FaultInv s) (hfault : t.fault = s.fault) (hfcause : t.fcause = s.fcause)
    (hhalted : t.ctl = .halted ↔ s.ctl = .halted) : FaultInv t := by
  unfold FaultInv
  rw [hfault, hfcause, hhalted]
  exact hs

/-- The codes of R238 are 1 to 6. -/
theorem faultCode_range (c : FaultCause) : 1 ≤ (faultCode c).toNat ∧ (faultCode c).toNat ≤ 6 := by
  cases c <;> decide

theorem faultInv_raise (s : State) (c : FaultCause) : FaultInv (s.raise c) :=
  ⟨by simp, by simp, fun _ => faultCode_range c⟩

theorem faultInv_platformReset (s : State) (b : Bool) : FaultInv (s.platformReset b) := by
  simp [FaultInv, State.reset]

theorem FaultInv.of_agentMove {a : Action} (hs : FaultInv s) (m : AgentMove s a t) : FaultInv t := by
  cases m with
  | host | source | timerFires | timerRests => exact hs.congr rfl rfl .rfl
  | fault _ c => exact faultInv_raise s c
  | command _ _ _ hc _ m =>
    refine hs.congr m.fault_eq m.fcause_eq ?_
    rcases m.ctl_cases with h | h | h | h <;> simp [h, hc]
  | engine _ _ m => exact hs.congr m.fault_eq m.fcause_eq m.halted_iff
  | reset b => exact faultInv_platformReset s b

end Sys2Proof.Safety
end

section
/-! PROOFS. The indicator bank as a function of the trace (10_state.md R41): every event is about an indicator or leaves it
alone, so the last event about it decides. -/

namespace Sys2Proof.Machine

/-- An event that says nothing of indicator `i`. -/
def LeavesIndicator (i : BitVec 3) (e : Event) : Prop := e ≠ .extAll ∧ ∀ b, e ≠ .ind i b

theorem leavesIndicator_or (i : BitVec 3) (e : Event) : LeavesIndicator i e ∨ e = .extAll ∨ ∃ b, e = .ind i b := by
  by_cases hx : e = .extAll
  · exact .inr (.inl hx)
  · by_cases hi : ∃ b, e = .ind i b
    · exact .inr (.inr hi)
    · exact .inl ⟨hx, not_exists.mp hi⟩

theorem indicatorEvent_of_leaves {i : BitVec 3} {e : Event} (h : LeavesIndicator i e) (was : Option Bool) :
    indicatorEvent i was e = was := by
  obtain ⟨not_extAll, not_ind⟩ := h
  cases e with
  | ind id on =>
    have hne : id ≠ i := by
      rintro rfl
      exact not_ind on rfl
    exact if_neg hne
  | extAll => exact absurd rfl not_extAll
  | tstart | disp => rfl

@[simp] theorem indicator_concat (tr : List Event) (e : Event) (i : BitVec 3) :
    indicator (tr ++ [e]) i = indicatorEvent i (indicator tr i) e := by
  simp [indicator]

/-- Events that leave an indicator alone may be dropped from the end of the trace. -/
theorem indicator_append_of_leaves (tr : List Event) {post : List Event} {i : BitVec 3}
    (h : ∀ e ∈ post, LeavesIndicator i e) : indicator (tr ++ post) i = indicator tr i := by
  induction post using List.reverseRecOn with
  | nil => rw [List.append_nil]
  | append_singleton post e ih =>
    rw [← List.append_assoc, indicator_concat, indicatorEvent_of_leaves (h e (by simp))]
    exact ih fun x hx => h x (by simp [hx])

/-- A trace has no event about the indicator, or it has a last one. -/
theorem leaves_or_last (tr : List Event) (i : BitVec 3) :
    (∀ e ∈ tr, LeavesIndicator i e) ∨
    ∃ pre e post, tr = pre ++ e :: post ∧ (e = .extAll ∨ ∃ b, e = .ind i b) ∧ ∀ x ∈ post, LeavesIndicator i x := by
  induction tr using List.reverseRecOn with
  | nil => exact .inl fun e he => absurd he List.not_mem_nil
  | append_singleton tr e ih =>
    rcases leavesIndicator_or i e with he | he
    · rcases ih with ih | ⟨pre, last, post, rfl, hlast, hpost⟩
      · exact .inl (List.forall_mem_append.mpr ⟨ih, List.forall_mem_singleton.mpr he⟩)
      · refine .inr ⟨pre, last, post ++ [e], by simp, hlast, ?_⟩
        exact List.forall_mem_append.mpr ⟨hpost, List.forall_mem_singleton.mpr he⟩
    · exact .inr ⟨tr, e, [], rfl, he, fun x hx => absurd hx List.not_mem_nil⟩

/-- What the last event about an indicator leaves it at. -/
theorem indicator_of_last (pre : List Event) (e : Event) {post : List Event} {i : BitVec 3}
    (h : ∀ x ∈ post, LeavesIndicator i x) :
    indicator (pre ++ e :: post) i = indicatorEvent i (indicator pre i) e := by
  rw [List.append_cons, indicator_append_of_leaves _ h, indicator_concat]

theorem indicator_eq_none_iff (tr : List Event) (i : BitVec 3) :
    indicator tr i = none ↔ ∀ e ∈ tr, LeavesIndicator i e := by
  constructor
  · intro h
    rcases leaves_or_last tr i with hall | ⟨pre, e, post, rfl, he, hpost⟩
    · exact hall
    · rw [indicator_of_last pre e hpost] at h
      rcases he with rfl | ⟨b, rfl⟩ <;> simp [indicatorEvent] at h
  · exact indicator_append_of_leaves []

theorem indicator_eq_some_true_iff (tr : List Event) (i : BitVec 3) :
    indicator tr i = some true ↔
      ∃ pre post, tr = pre ++ .ind i true :: post ∧ ∀ e ∈ post, LeavesIndicator i e := by
  constructor
  · intro h
    rcases leaves_or_last tr i with hall | ⟨pre, e, post, rfl, he, hpost⟩
    · rw [(indicator_eq_none_iff tr i).mpr hall] at h
      cases h
    · rw [indicator_of_last pre e hpost] at h
      rcases he with rfl | ⟨b, rfl⟩
      · cases h
      · have hb : b = true := by simpa [indicatorEvent] using h
        exact ⟨pre, post, by rw [hb], hpost⟩
  · rintro ⟨pre, post, rfl, hpost⟩
    rw [indicator_of_last pre _ hpost]
    exact if_pos rfl

end Sys2Proof.Machine
end

section
/-! PROOFS. STATUS (10_state.md R32). -/

namespace Sys2Proof.Machine

theorem busy_iff (s : State) : s.busy = true ↔ s.ctl ≠ .idle ∧ s.ctl ≠ .halted := by
  simp [State.busy]

/-- STATUS, read bit by bit; FCAUSE has no bits above its four. -/
theorem status_getLsbD (s : State) (j : Nat) :
    s.status.getLsbD j =
      if j = 0 then s.busy else if j = 1 then s.seeded else if j = 2 then s.fault else if j = 3 then false
      else s.fcause.getLsbD (j - 4) := by
  have parts : s.status.getLsbD j = BitVec.getLsbD (w := 24 + 4 + 1 + 1 + 1 + 1)
      (0#24 ++ s.fcause ++ 0#1 ++ BitVec.ofBool s.fault ++ BitVec.ofBool s.seeded ++ BitVec.ofBool s.busy) j := rfl
  rw [parts]
  simp only [BitVec.getLsbD_append, BitVec.getLsbD_ofBool]
  match j with
  | 0 | 1 | 2 | 3 => simp
  | j + 4 => simpa using BitVec.lt_of_getLsbD (x := s.fcause) (i := j)

theorem status_getLsbD_four_add (s : State) (k : Nat) : s.status.getLsbD (4 + k) = s.fcause.getLsbD k := by
  rw [status_getLsbD, if_neg (by omega), if_neg (by omega), if_neg (by omega), if_neg (by omega),
    Nat.add_sub_cancel_left]

end Sys2Proof.Machine
end

section
/-! PROOFS. The obligations of spec/10_state.md. -/

namespace Sys2Proof.Proofs

open Sys2Proof Sys2Proof.Machine Sys2Proof.Safety

/-- Settles O58: each agent's move keeps the pairing of TARMED and TIMER's flag. -/
theorem stepKeepsTimerInvariant : Obligations.StepKeepsTimerInvariant :=
  fun _ _ => step_keeps (fun _ _ _ hs => hs.congr rfl rfl rfl) fun _ _ _ hs m => hs.of_agentMove m

/-- Settles O30: no guard of ENGINE's moves reads such a flag and no move writes it. -/
theorem engineIgnoresOtherFlags : Obligations.EngineIgnoresOtherFlags :=
  fun inp s _ b hconfirm htimer => engineStepUnder_putFlag Config.capturePolicy inp s hconfirm htimer b

/-- Settles O50, from the one reading of STATUS's bits. -/
theorem statusIsComposed : Obligations.StatusIsComposed := by
  intro s
  refine ⟨?_, ?_, ?_, ?_, ?_, ?_⟩
  · rw [status_getLsbD, ← busy_iff]
    rfl
  · rw [status_getLsbD]
    rfl
  · rw [status_getLsbD]
    rfl
  · rw [status_getLsbD]
    rfl
  · refine BitVec.eq_of_getLsbD_eq fun k hk => ?_
    rw [BitVec.getLsbD_extractLsb', status_getLsbD_four_add]
    simp [hk]
  · refine BitVec.eq_of_getLsbD_eq fun k _ => ?_
    rw [BitVec.getLsbD_extractLsb', show 8 + k = 4 + (4 + k) by omega, status_getLsbD_four_add,
      BitVec.getLsbD_of_ge _ _ (Nat.le_add_right 4 k)]
    simp

/-- Settles O51: every other agent's move leaves RESULT, and of the commands' and ENGINE's only the four writers change it. -/
theorem resultHasFourWriters : Obligations.ResultHasFourWriters := by
  intro a s t h hne
  cases act_move h with
  | host | fault | source | timerFires | timerRests => exact absurd rfl hne
  | command w i _ hc hd m =>
    exact .inl ⟨w, i, rfl, hd, hc, m.result_eq_or_draw_or_ftest.resolve_left hne⟩
  | engine inp _ m => exact .inr (.inl ⟨inp, rfl, m.result_eq_or_gameEnd.resolve_left hne⟩)
  | reset b => exact .inr (.inr ⟨b, rfl⟩)

/-- Settles O52: a move other than the reset's appends to the trace, or leaves it, and never clears SEEDED. -/
theorem traceAndSeedingLastUntilReset : Obligations.TraceAndSeedingLastUntilReset := by
  intro a s t h hnot_reset
  cases act_move h with
  | host | fault | source | timerFires | timerRests => exact ⟨⟨[], s.trace.append_nil.symm⟩, id⟩
  | command _ _ _ _ _ m => exact ⟨m.trace_appends, m.seeded_eq.trans⟩
  | engine _ _ m => exact ⟨m.trace_appends, m.seeded_of_seeded⟩
  | reset b => exact absurd rfl (hnot_reset b)

/-- Settles O53: the last event about the indicator decides, or there is none. -/
theorem indicatorFollowsLastEvent : Obligations.IndicatorFollowsLastEvent := fun tr i =>
  ⟨indicator_eq_some_true_iff tr i, indicator_eq_none_iff tr i, indicator_concat tr .extAll i,
    fun j b => indicator_concat tr (.ind j b) i⟩

/-- Settles O56: only a fault and the reset touch FAULT, FCAUSE or HALTED, and both leave them in agreement. -/
theorem stepKeepsFaultInvariant : Obligations.StepKeepsFaultInvariant :=
  fun _ _ => step_keeps (fun _ _ _ hs => hs.congr rfl rfl .rfl) fun _ _ _ hs m => hs.of_agentMove m

/-- Settles O7, by the two equations of the schedule. -/
theorem stepIsTheNextAgentsStep : Obligations.StepIsTheNextAgentsStep := by
  refine ⟨fun s a rest h => ?_, fun s h => ?_, fun s inp => ⟨rfl, rfl⟩, fun s inp hc => engineStepUnder_rest hc⟩
  · rw [step, nextAction_cons h]
  · rw [step, nextAction_nil h]

/-- Settles O10: the agent chosen has a next state, whichever it is. -/
theorem everyStepHasNextState : Obligations.EveryStepHasNextState :=
  fun s => exists_act_next s.nextAction.1 s.nextAction.2

/-- Settles O54, each value read off State.reset. -/
theorem resetGivesStatedValues : Obligations.ResetGivesStatedValues :=
  fun s b => ⟨s.platformReset b, rfl, rfl, rfl, rfl, State.reset_flag, rfl, rfl, rfl, rfl,
    (by decide : State.reset.status = 0)⟩

/-- Settles O55: in IDLE the seed, guess and sequence invariants ask nothing. -/
theorem resetMeetsInvariants : Obligations.ResetMeetsInvariants :=
  ⟨faultInv_platformReset State.reset false, trivial, timerInv_platformReset State.reset false, trivial, trivial⟩

end Sys2Proof.Proofs
end

section
/-! PROOFS. The decoder on a command's own word (30_encoding.md R80 to R83). -/

namespace Sys2Proof

/-! ## The fields of a command's word -/

theorem opField_encode (i : Instr) : opField (encode i) = i.op :=
  (BitVec.extractLsb'_append_eq_of_le (xhi := i.op ++ i.fieldA) (xlo := i.fieldImm) (by decide)).trans
    BitVec.extractLsb'_append_eq_left

theorem aField_encode (i : Instr) : aField (encode i) = i.fieldA :=
  (BitVec.extractLsb'_append_eq_of_le (xhi := i.op ++ i.fieldA) (xlo := i.fieldImm) (by decide)).trans
    BitVec.extractLsb'_append_eq_right

theorem immField_encode (i : Instr) : immField (encode i) = i.fieldImm :=
  BitVec.extractLsb'_append_eq_right (a := i.op ++ i.fieldA)

theorem ofIndex_index (f : Flag) : Flag.ofIndex f.index = f := by cases f <;> rfl

/-! ## The rows' checks passed -/

section

variable {w : Word}

theorem decodePlain_eq_ok (ha : aField w = 0) (himm : immField w = 0) (i : Instr) : decodePlain w i = .ok i := by
  simp [decodePlain, ha, himm]

theorem decodeDraw_eq_ok {size : Byte} (ha : aField w = 0) (himm : immField w = size.setWidth 16) :
    decodeDraw w = .ok (.draw size) := by
  have high : (size.setWidth 16).extractLsb' 8 8 = 0 := by ext; simp
  have low : (size.setWidth 16).extractLsb' 0 8 = size := by
    rw [BitVec.extractLsb'_setWidth_of_le (by decide), BitVec.extractLsb'_eq_self]
  simp [decodeDraw, ha, himm, high, low]

theorem decodeFlag_eq_ok {f : Flag} (ha : aField w = BitVec.ofNat 8 f.index.val) (himm : immField w = 0)
    (mk : Flag → Instr) : decodeFlag w mk = .ok (mk f) := by
  have index : (aField w).toNat = f.index.val := by
    rw [ha, BitVec.toNat_ofNat, Nat.mod_eq_of_lt (by omega)]
  simp [decodeFlag, himm, index, ofIndex_index]

theorem decodeDigits_eq_ok {v : BitVec 16} (ha : aField w = 0) (himm : immField w = v) :
    decodeDigits w = .ok (.digits v) := by
  simp [decodeDigits, ha, himm]

end

/-- OP selects the command's own row, and the other two fields pass that row's checks. -/
theorem decode_encode (i : Instr) : decode (encode i) = .ok i := by
  have ha := aField_encode i
  have himm := immField_encode i
  unfold decode
  rw [opField_encode]
  cases i with
  | seed | advance | runguess | runseq => exact decodePlain_eq_ok ha himm _
  | draw size => exact decodeDraw_eq_ok ha himm
  | ftest f | fclr f => exact decodeFlag_eq_ok ha himm _
  | digits v => exact decodeDigits_eq_ok ha himm

/-- A 32-bit table word is the word itself. -/
theorem wordOfTable_toNat (w : Word) : wordOfTable 32 w.toNat = w := by
  rw [wordOfTable, Nat.mod_eq_of_lt w.isLt, BitVec.ofNat_toNat, BitVec.setWidth_eq]

end Sys2Proof
end

section
/-! PROOFS. HOST's window (spec/20_memory.md): the rule of each access, admitted or not, the write that runs a command,
and the window's place on HOST's bus. -/

namespace Sys2Proof.Machine

/-! ## The agent HOST (20_memory.md R62) -/

section

variable {s : State}

/-- A stuck HOST has no step (log 7). -/
theorem act_of_stuck {a : Action} (ha : a.isHost = true) (hs : s.hostStuck = true) : act a s = .next s := by
  simp [act, ha, hs]

theorem act_hostWrite (hs : s.hostStuck = false) (off : BitVec 4) (n : Nat) (v : Word) :
    act (.hostWrite off n v) s = hostWriteStep off n v s := by
  simp [act, hs]

theorem act_hostRead (hs : s.hostStuck = false) (off : BitVec 4) (n : Nat) :
    act (.hostRead off n) s = .next (hostReadStep off n s) := by
  simp [act, hs]

theorem setHostStuck_of_stuck (hs : s.hostStuck = true) : { s with hostStuck := true } = s := by
  rw [← hs]

end

/-! ## Admission (20_memory.md R62 to R64) -/

theorem admitted_iff (off : BitVec 4) (n : Nat) :
    admitted off n = true ↔ n = 4 ∧ (off = 0x0 ∨ off = 0x4 ∨ off = 0x8) := by
  simp [admitted, or_assoc]

theorem not_admitted_iff (off : BitVec 4) (n : Nat) :
    admitted off n = false ↔ ¬(n = 4 ∧ (off = 0x0 ∨ off = 0x4 ∨ off = 0x8)) := by
  rw [← admitted_iff, Bool.not_eq_true]

section

variable {off : BitVec 4} {n : Nat}

theorem hostReadStep_admitted (h : admitted off n = true) (s : State) :
    hostReadStep off n s = { s with rdata := some (readRegister off s) } := if_pos h

theorem hostReadStep_not_admitted (h : admitted off n = false) (s : State) :
    hostReadStep off n s = { s with hostStuck := true } := if_neg (Bool.eq_false_iff.mp h)

theorem hostWriteStep_cmd (w : Word) (s : State) : hostWriteStep 0x0 4 w s = writeCmd w s := rfl

/-- RESULT and STATUS are read only. -/
theorem hostWriteStep_readOnly (h : admitted off n = true) (hoff : off ≠ 0x0) (v : Word) (s : State) :
    hostWriteStep off n v s = .next s := by
  rw [hostWriteStep, if_pos h, if_neg hoff]

theorem hostWriteStep_not_admitted (h : admitted off n = false) (v : Word) (s : State) :
    hostWriteStep off n v s = .next { s with hostStuck := true } := if_neg (Bool.eq_false_iff.mp h)

/-! ## HOST's accesses, whether HOST is stuck already or not -/

theorem act_hostWrite_readOnly (h : admitted off n = true) (hoff : off ≠ 0x0) (v : Word) (s : State) :
    act (.hostWrite off n v) s = .next s := by
  cases hs : s.hostStuck with
  | true => exact act_of_stuck rfl hs
  | false => rw [act_hostWrite hs, hostWriteStep_readOnly h hoff]

theorem act_hostWrite_not_admitted (h : admitted off n = false) (v : Word) (s : State) :
    act (.hostWrite off n v) s = .next { s with hostStuck := true } := by
  cases hs : s.hostStuck with
  | true => rw [act_of_stuck rfl hs, setHostStuck_of_stuck hs]
  | false => rw [act_hostWrite hs, hostWriteStep_not_admitted h]

theorem act_hostRead_not_admitted (h : admitted off n = false) (s : State) :
    act (.hostRead off n) s = .next { s with hostStuck := true } := by
  cases hs : s.hostStuck with
  | true => rw [act_of_stuck rfl hs, setHostStuck_of_stuck hs]
  | false => rw [act_hostRead hs, hostReadStep_not_admitted h]

/-- A free HOST's read of a register changes only HOST's last read value (log 15). -/
theorem act_hostRead_admitted {s : State} (hs : s.hostStuck = false) (h : admitted off n = true) :
    act (.hostRead off n) s = .next { s with rdata := some (readRegister off s) } := by
  rw [act_hostRead hs, hostReadStep_admitted h]

end

/-! ## The write to CMD that runs a command (20_memory.md R64, 60_exceptions.md R230) -/

theorem exec_halted {s : State} (h : s.ctl = .halted) (i : Instr) : exec i s = .next s := by
  rw [exec_eq_accept, accept_halted h]

/-- The write's own test of HALTED and the command's agree, so a legal word's write is its command in every control
state. -/
theorem writeCmd_of_decode {w : Word} {i : Instr} (hd : decode w = .ok i) (s : State) : writeCmd w s = exec i s := by
  unfold writeCmd
  split
  case isTrue h => rw [exec_halted h]
  case isFalse => rw [hd]

/-- The next agent is a free HOST writing a legal word to CMD: the step is the command's. -/
theorem step_of_cmdWrite {s : State} {w : Word} {i : Instr} {rest : List Action}
    (hagenda : s.agenda = .hostWrite 0x0 4 w :: rest) (hs : s.hostStuck = false) (hd : decode w = .ok i) :
    step s = exec i { s with agenda := rest } := by
  have free : ({ s with agenda := rest } : State).hostStuck = false := hs
  calc step s = act (.hostWrite 0x0 4 w) { s with agenda := rest } := by rw [step, nextAction_cons hagenda]
    _ = writeCmd w { s with agenda := rest } := by rw [act_hostWrite free, hostWriteStep_cmd]
    _ = exec i { s with agenda := rest } := writeCmd_of_decode hd _

/-! ## The window on HOST's bus (20_memory.md R61) -/

theorem windowOffset_base_add (off : BitVec 4) : windowOffset (Config.gieBase + off.toNat) = some off := by
  have inside : off.toNat < 16 := off.isLt
  rw [windowOffset, if_pos (by omega), Nat.add_sub_cancel_left, BitVec.ofNat_toNat, BitVec.setWidth_eq]

theorem windowOffset_outside {addr : Nat} (h : addr < Config.gieBase ∨ Config.gieBase + 16 ≤ addr) :
    windowOffset addr = none := if_neg (by omega)

theorem memRead_base_add (off : BitVec 4) (n : Nat) :
    memRead (Config.gieBase + off.toNat) n = some (.hostRead off n) := by
  rw [memRead, windowOffset_base_add, Option.map_some]

theorem memWrite_base_add (off : BitVec 4) (n : Nat) (v : Word) :
    memWrite (Config.gieBase + off.toNat) n v = some (.hostWrite off n v) := by
  rw [memWrite, windowOffset_base_add, Option.map_some]

section

variable {addr : Nat} (h : addr < Config.gieBase ∨ Config.gieBase + 16 ≤ addr)
include h

theorem memRead_outside (n : Nat) : memRead addr n = none := by
  rw [memRead, windowOffset_outside h, Option.map_none]

theorem memWrite_outside (n : Nat) (v : Word) : memWrite addr n v = none := by
  rw [memWrite, windowOffset_outside h, Option.map_none]

end

end Sys2Proof.Machine
end

section
/-! PROOFS. The obligations of spec/20_memory.md. -/

namespace Sys2Proof.Proofs

open Sys2Proof Sys2Proof.Machine

/-- Settles O9: the placed word decodes to the command, and the write leaves the agenda as it was. -/
theorem placedCommandRunsNext : Obligations.PlacedCommandRunsNext := by
  intro s i
  have placed : decode (wordOfTable 32 (encode i).toNat) = .ok i := by
    rw [wordOfTable_toNat, decode_encode]
  exact step_of_cmdWrite (s := s.withFetchWord 32 (encode i).toNat) rfl rfl placed

/-- Settles O8; that the command is well-formed is not needed. -/
theorem stepRunsDecodedCommand : Obligations.StepRunsDecodedCommand :=
  fun _ _ _ _ hagenda hs hd _ => step_of_cmdWrite hagenda hs hd

/-- Settles O47: the three offsets are admitted, and readRegister is the register there. -/
theorem readsReturnRegisters : Obligations.ReadsReturnRegisters := fun _ hs =>
  ⟨act_hostRead_admitted hs rfl, act_hostRead_admitted hs rfl, act_hostRead_admitted hs rfl⟩

/-- Settles O48: a write to a read-only register, and an access that is not admitted, each have one outcome whether HOST
is stuck or not. -/
theorem otherAccessesDoNothing : Obligations.OtherAccessesDoNothing := by
  refine ⟨fun s v => ?readOnly, fun s off n v hacc => ?notAdmitted, fun _ _ ha hs => act_of_stuck ha hs⟩
  case readOnly =>
    exact ⟨act_hostWrite_readOnly rfl (by decide) v s, act_hostWrite_readOnly rfl (by decide) v s⟩
  case notAdmitted =>
    have hadm := (not_admitted_iff off n).mpr hacc
    exact ⟨act_hostWrite_not_admitted hadm v s, act_hostRead_not_admitted hadm s⟩

/-- Settles O49: an offset below 16 comes back from its bus address, and no other address has one. -/
theorem windowIsSixteenBytesAtBase : Obligations.WindowIsSixteenBytesAtBase :=
  ⟨Config.gieBase_aligned,
    fun off => ⟨windowOffset_base_add off, memRead_base_add off, memWrite_base_add off⟩,
    fun _ h => ⟨windowOffset_outside h, memRead_outside h, memWrite_outside h⟩,
    fun v => ⟨memRead_base_add 0x0 4, memRead_base_add 0x4 4, memRead_base_add 0x8 4, memWrite_base_add 0x0 4 v⟩⟩

end Sys2Proof.Proofs
end

section
/-! PROOFS. The words that are commands (30_encoding.md R80 to R84): a word is its fields; what the decoder accepts, in
the terms of R83; a word that decodes is its command's own. -/

namespace Sys2Proof

/-! ## A word and its fields (R80) -/

theorem extractLsb'_extractLsb' {n : Nat} (w : BitVec n) {start len start' len' : Nat} (h : start' + len' ≤ len) :
    (w.extractLsb' start len).extractLsb' start' len' = w.extractLsb' (start + start') len' := by
  ext k hk
  simp [show start' + k < len by omega, Nat.add_assoc]

/-- Cutting a bit string in two loses nothing. -/
theorem eq_append_iff {a b : Nat} (w : BitVec (a + b)) (hi : BitVec a) (lo : BitVec b) :
    w = hi ++ lo ↔ w.extractLsb' b a = hi ∧ w.extractLsb' 0 b = lo := by
  constructor
  · rintro rfl
    exact ⟨BitVec.extractLsb'_append_eq_left, BitVec.extractLsb'_append_eq_right⟩
  · rintro ⟨rfl, rfl⟩
    rw [BitVec.extractLsb'_append_extractLsb'_eq_extractLsb' (by omega), BitVec.extractLsb'_eq_self]

theorem eq_zero_iff_parts {a b : Nat} (w : BitVec (a + b)) :
    w = 0#(a + b) ↔ w.extractLsb' b a = 0#a ∧ w.extractLsb' 0 b = 0#b := by
  rw [← eq_append_iff, BitVec.zero_append_zero]

theorem fields_append (w : Word) : opField w ++ aField w ++ immField w = w := by
  have high : opField w ++ aField w = w.extractLsb' 16 16 :=
    BitVec.extractLsb'_append_extractLsb'_eq_extractLsb' rfl
  rw [high]
  exact (BitVec.extractLsb'_append_extractLsb'_eq_extractLsb' (len₂ := 16) rfl).trans BitVec.extractLsb'_eq_self

theorem encode_eq_of_fields {w : Word} {i : Instr} (hop : opField w = i.op) (ha : aField w = i.fieldA)
    (himm : immField w = i.fieldImm) : encode i = w := by
  rw [encode, ← hop, ← ha, ← himm, fields_append]

/-- The word of a command, as R85 computes it from its fields. -/
theorem encode_eq_ofNat (i : Instr) :
    encode i = BitVec.ofNat 32 (i.op.toNat * 2 ^ 24 + i.fieldA.toNat * 2 ^ 16 + i.fieldImm.toNat) := by
  have op := i.op.isLt
  have a := i.fieldA.isLt
  have imm := i.fieldImm.isLt
  apply BitVec.eq_of_toNat_eq
  rw [encode, BitVec.toNat_append, BitVec.toNat_append, ← Nat.shiftLeft_add_eq_or_of_lt imm,
    ← Nat.shiftLeft_add_eq_or_of_lt a, BitVec.toNat_ofNat, Nat.shiftLeft_eq, Nat.shiftLeft_eq]
  omega

/-! ## The bits R83 names, in terms of the fields -/

theorem low24_eq_zero_iff (w : Word) : w.extractLsb' 0 24 = 0 ↔ aField w = 0 ∧ immField w = 0 := by
  have parts := eq_zero_iff_parts (a := 8) (b := 16) (w.extractLsb' 0 24)
  rwa [extractLsb'_extractLsb' w (by decide), extractLsb'_extractLsb' w (by decide)] at parts

theorem mid16_eq_zero_iff (w : Word) :
    w.extractLsb' 8 16 = 0 ↔ aField w = 0 ∧ (immField w).extractLsb' 8 8 = 0 := by
  have parts := eq_zero_iff_parts (a := 8) (b := 8) (w.extractLsb' 8 16)
  rw [extractLsb'_extractLsb' w (by decide), extractLsb'_extractLsb' w (by decide)] at parts
  rwa [immField, extractLsb'_extractLsb' w (by decide)]

/-- The flag index is in range when the bits of `A` above it are zero. -/
theorem high5_eq_zero_iff (w : Word) : w.extractLsb' 19 5 = 0 ↔ (aField w).toNat < 8 := by
  rw [← BitVec.toNat_inj, aField, BitVec.extractLsb'_toNat, BitVec.extractLsb'_toNat, Nat.shiftRight_eq_div_pow,
    Nat.shiftRight_eq_div_pow]
  show _ = 0 ↔ _
  omega

/-- OP is that of no command, or one of the eight of R82. -/
theorem opField_cases (w : Word) :
    (opField w = 0 ∨ 9 ≤ (opField w).toNat) ∨ opField w = 1 ∨ opField w = 2 ∨ opField w = 3 ∨ opField w = 4 ∨
    opField w = 5 ∨ opField w = 6 ∨ opField w = 7 ∨ opField w = 8 := by
  simp only [← BitVec.toNat_inj]
  show (_ = 0 ∨ _) ∨ _ = 1 ∨ _ = 2 ∨ _ = 3 ∨ _ = 4 ∨ _ = 5 ∨ _ = 6 ∨ _ = 7 ∨ _ = 8
  omega

/-! ## What the decoder accepts (R81) -/

theorem index_ofIndex (k : Fin 8) : (Flag.ofIndex k).index = k := by
  revert k
  decide

/-- A flag index in range is the index of the flag it selects. -/
theorem aField_eq_index {w : Word} (h : w.extractLsb' 19 5 = 0) :
    aField w = BitVec.ofNat 8 (Flag.ofIndex (Fin.ofNat 8 (aField w).toNat)).index.val := by
  rw [index_ofIndex, Fin.val_ofNat, Nat.mod_eq_of_lt ((high5_eq_zero_iff w).mp h), BitVec.ofNat_toNat,
    BitVec.setWidth_eq]

theorem setWidth_low8 {v : BitVec 16} (high : v.extractLsb' 8 8 = 0) : (v.extractLsb' 0 8).setWidth 16 = v := by
  rw [BitVec.setWidth_eq_append (by decide)]
  exact ((eq_append_iff (a := 8) (b := 8) v 0 _).mpr ⟨high, rfl⟩).symm

section

variable {w : Word} {i j : Instr}

/-- The decoder's checks are each of this shape: a part of a field must be zero. -/
theorem zeroCheck_eq_ok_iff {n : Nat} {part : BitVec n} {r : Reject} {d : Except Reject Instr} :
    (if part ≠ 0 then .error r else d) = .ok j ↔ part = 0 ∧ d = .ok j := by
  split
  case isTrue h => exact ⟨(nomatch ·), fun hj => absurd hj.1 h⟩
  case isFalse h => exact ⟨fun hj => ⟨not_not.mp h, hj⟩, And.right⟩

theorem decodePlain_eq_ok_iff : decodePlain w i = .ok j ↔ w.extractLsb' 0 24 = 0 ∧ i = j := by
  rw [decodePlain, zeroCheck_eq_ok_iff, zeroCheck_eq_ok_iff, low24_eq_zero_iff, and_assoc, Except.ok.injEq]

theorem decodeDraw_eq_ok_iff :
    decodeDraw w = .ok j ↔ w.extractLsb' 8 16 = 0 ∧ .draw ((immField w).extractLsb' 0 8) = j := by
  rw [decodeDraw, zeroCheck_eq_ok_iff, zeroCheck_eq_ok_iff, mid16_eq_zero_iff, and_assoc, Except.ok.injEq]

theorem decodeDigits_eq_ok_iff : decodeDigits w = .ok j ↔ w.extractLsb' 16 8 = 0 ∧ .digits (immField w) = j := by
  rw [decodeDigits, zeroCheck_eq_ok_iff, Except.ok.injEq]
  rfl

theorem decodeFlag_eq_ok_iff {mk : Flag → Instr} :
    decodeFlag w mk = .ok j ↔
      (w.extractLsb' 19 5 = 0 ∧ w.extractLsb' 0 16 = 0) ∧ mk (Flag.ofIndex (Fin.ofNat 8 (aField w).toNat)) = j := by
  rw [decodeFlag, zeroCheck_eq_ok_iff, high5_eq_zero_iff, and_comm (a := _ < 8), and_assoc, immField]
  refine and_congr_right fun _ => ?_
  split
  case isTrue inRange =>
    have index : Fin.ofNat 8 (aField w).toNat = ⟨(aField w).toNat, inRange⟩ := Fin.ext (Nat.mod_eq_of_lt inRange)
    rw [index, Except.ok.injEq, and_iff_right inRange]
  case isFalse outOfRange => exact ⟨(nomatch ·), fun h => absurd h.1 outOfRange⟩

/-! ## The decoder, row by row (R82 to R84) -/

theorem decode_undefinedOp (h : opField w = 0 ∨ 9 ≤ (opField w).toNat) : decode w = .error .undefinedOp := by
  have undefined : (opField w).toNat = 0 ∨ 9 ≤ (opField w).toNat := h.imp_left (congrArg BitVec.toNat)
  unfold decode
  split
  case h_9 => rfl
  all_goals omega

/-- A word that decodes has the fields of its command. -/
theorem encode_of_decode (h : decode w = .ok i) : encode i = w := by
  unfold decode at h
  split at h
  case h_1 op | h_2 op | h_7 op | h_8 op =>
    obtain ⟨unused, rfl⟩ := decodePlain_eq_ok_iff.mp h
    obtain ⟨ha, himm⟩ := (low24_eq_zero_iff w).mp unused
    exact encode_eq_of_fields (BitVec.eq_of_toNat_eq op) ha himm
  case h_3 op =>
    obtain ⟨unused, rfl⟩ := decodeDraw_eq_ok_iff.mp h
    obtain ⟨ha, himm⟩ := (mid16_eq_zero_iff w).mp unused
    exact encode_eq_of_fields (BitVec.eq_of_toNat_eq op) ha (setWidth_low8 himm).symm
  case h_4 op | h_5 op =>
    obtain ⟨⟨high, himm⟩, rfl⟩ := decodeFlag_eq_ok_iff.mp h
    exact encode_eq_of_fields (BitVec.eq_of_toNat_eq op) (aField_eq_index high) himm
  case h_6 op =>
    obtain ⟨ha, rfl⟩ := decodeDigits_eq_ok_iff.mp h
    exact encode_eq_of_fields (BitVec.eq_of_toNat_eq op) ha rfl
  case h_9 => cases h

end

/-! ## The words that decode (R83) -/

/-- R83 turned round: OP is that of a command, and the bits that command does not use are zero. -/
def LegalFields (w : Word) : Prop :=
  ((opField w = 1 ∨ opField w = 2 ∨ opField w = 7 ∨ opField w = 8) ∧ w.extractLsb' 0 24 = 0) ∨
  (opField w = 3 ∧ w.extractLsb' 8 16 = 0) ∨
  ((opField w = 4 ∨ opField w = 5) ∧ w.extractLsb' 19 5 = 0 ∧ w.extractLsb' 0 16 = 0) ∨
  (opField w = 6 ∧ w.extractLsb' 16 8 = 0)

theorem not_legalFields_of_undefined {w : Word} (undefined : opField w = 0 ∨ 9 ≤ (opField w).toNat) :
    ¬LegalFields w := by
  rintro (⟨op | op | op | op, -⟩ | ⟨op, -⟩ | ⟨op | op, -⟩ | ⟨op, -⟩)
  all_goals simp [op] at undefined

theorem exists_decode_ok_iff (w : Word) : (∃ i, decode w = .ok i) ↔ LegalFields w := by
  rcases opField_cases w with undefined | op | op | op | op | op | op | op | op
  · rw [decode_undefinedOp undefined, iff_false_right (not_legalFields_of_undefined undefined)]
    exact fun ⟨_, h⟩ => nomatch h
  all_goals
    simp [decode, LegalFields, op, decodePlain_eq_ok_iff, decodeDraw_eq_ok_iff, decodeFlag_eq_ok_iff,
      decodeDigits_eq_ok_iff]

theorem exists_decode_error_iff (w : Word) : (∃ r, decode w = .error r) ↔ ¬LegalFields w := by
  rw [← exists_decode_ok_iff]
  cases decode w <;> simp

/-- R83's own list, for the words that are no command. -/
theorem not_legalFields_iff (w : Word) :
    ¬LegalFields w ↔
      (opField w = 0x00 ∨ 0x09 ≤ (opField w).toNat ∨
       ((opField w = 0x01 ∨ opField w = 0x02 ∨ opField w = 0x07 ∨ opField w = 0x08) ∧ w.extractLsb' 0 24 ≠ 0) ∨
       (opField w = 0x03 ∧ w.extractLsb' 8 16 ≠ 0) ∨
       ((opField w = 0x04 ∨ opField w = 0x05) ∧ (w.extractLsb' 19 5 ≠ 0 ∨ w.extractLsb' 0 16 ≠ 0)) ∨
       (opField w = 0x06 ∧ w.extractLsb' 16 8 ≠ 0)) := by
  rcases opField_cases w with undefined | op | op | op | op | op | op | op | op
  · exact iff_of_true (not_legalFields_of_undefined undefined) (or_assoc.mp (.inl undefined))
  all_goals simp [LegalFields, op, imp_iff_not_or]

end Sys2Proof
end

section
/-! PROOFS. The opcode map (30_encoding.md R82): what a row matches, in R83's terms, and that one word has one row. -/

namespace Sys2Proof

/-! ## One row -/

/-- A row of the map: the mask takes all of OP, and of the low 24 bits those the command does not use. -/
def opRow (name : String) (op : Byte) (unused : BitVec 24) : OpRow := ⟨name, op ++ 0#24, 0xFF#8 ++ unused⟩

theorem opcodeMap_eq : opcodeMap =
    [opRow "SEED" 1 0xFFFFFF, opRow "ADVANCE" 2 0xFFFFFF, opRow "DRAW" 3 0xFFFF00, opRow "FTEST" 4 0xF8FFFF,
     opRow "FCLR" 5 0xF8FFFF, opRow "DIGITS" 6 0xFF0000, opRow "RUNGUESS" 7 0xFFFFFF, opRow "RUNSEQ" 8 0xFFFFFF] := rfl

theorem and_append_eq_append_iff {a b : Nat} (w : BitVec (a + b)) (m p : BitVec a) (n q : BitVec b) :
    w &&& (m ++ n) = p ++ q ↔ w.extractLsb' b a &&& m = p ∧ w.extractLsb' 0 b &&& n = q := by
  rw [eq_append_iff, BitVec.extractLsb'_and, BitVec.extractLsb'_and, BitVec.extractLsb'_append_eq_left,
    BitVec.extractLsb'_append_eq_right]

theorem opRow_matchesWord (name : String) (op : Byte) (unused : BitVec 24) (w : Word) :
    (opRow name op unused).matchesWord w = true ↔ opField w = op ∧ w.extractLsb' 0 24 &&& unused = 0 := by
  rw [OpRow.matchesWord, beq_iff_eq]
  have h := and_append_eq_append_iff w 0xFF#8 op unused 0#24
  rwa [show (0xFF#8) = BitVec.allOnes 8 from rfl, BitVec.and_allOnes] at h

theorem and_high_eq_zero_iff {a b : Nat} (w : BitVec (a + b)) :
    w &&& (BitVec.allOnes a ++ 0#b) = 0#(a + b) ↔ w.extractLsb' b a = 0#a := by
  rw [← BitVec.zero_append_zero, and_append_eq_append_iff, BitVec.and_allOnes]
  exact and_iff_left BitVec.and_zero

theorem and_low_eq_zero_iff {a b : Nat} (w : BitVec (a + b)) :
    w &&& (0#a ++ BitVec.allOnes b) = 0#(a + b) ↔ w.extractLsb' 0 b = 0#b := by
  rw [← BitVec.zero_append_zero, and_append_eq_append_iff, BitVec.and_allOnes]
  exact and_iff_right BitVec.and_zero

/-! ## The unused bits of each kind of row -/

theorem low24_and_plain (w : Word) : w.extractLsb' 0 24 &&& 0xFFFFFF = 0 ↔ w.extractLsb' 0 24 = 0 := by
  rw [show (0xFFFFFF : BitVec 24) = BitVec.allOnes 24 from rfl, BitVec.and_allOnes]

theorem low24_and_draw (w : Word) : w.extractLsb' 0 24 &&& 0xFFFF00 = 0 ↔ w.extractLsb' 8 16 = 0 := by
  have high := and_high_eq_zero_iff (a := 16) (b := 8) (w.extractLsb' 0 24)
  rwa [extractLsb'_extractLsb' w (by decide)] at high

theorem low24_and_digits (w : Word) : w.extractLsb' 0 24 &&& 0xFF0000 = 0 ↔ w.extractLsb' 16 8 = 0 := by
  have high := and_high_eq_zero_iff (a := 8) (b := 16) (w.extractLsb' 0 24)
  rwa [extractLsb'_extractLsb' w (by decide)] at high

/-- The flag's own three bits lie between the two unused parts. -/
theorem low24_and_flag (w : Word) :
    w.extractLsb' 0 24 &&& 0xF8FFFF = 0 ↔ w.extractLsb' 19 5 = 0 ∧ w.extractLsb' 0 16 = 0 := by
  have parts := and_append_eq_append_iff (a := 5) (b := 19) (w.extractLsb' 0 24) (BitVec.allOnes 5) 0#5
    (0#3 ++ BitVec.allOnes 16) 0#19
  have low := and_low_eq_zero_iff (a := 3) (b := 16) (w.extractLsb' 0 19)
  rw [extractLsb'_extractLsb' w (by decide)] at low
  rw [extractLsb'_extractLsb' w (by decide), extractLsb'_extractLsb' w (by decide), BitVec.and_allOnes] at parts
  exact parts.trans (and_congr_right' low)

/-! ## The map -/

/-- The map's rows, grouped by the bits they leave unused, are R83's kinds of command. -/
theorem exists_row_iff (w : Word) : (∃ r ∈ opcodeMap, r.matchesWord w = true) ↔ LegalFields w := by
  simp only [opcodeMap_eq, List.exists_mem_cons_iff, List.not_mem_nil, opRow_matchesWord, low24_and_plain,
    low24_and_draw, low24_and_flag, low24_and_digits, false_and, exists_false, or_false]
  grind [LegalFields]

theorem opField_mask : ∀ r ∈ opcodeMap, opField r.mask = BitVec.allOnes 8 := by decide

/-- A row matches only words with its own OP. -/
theorem opField_of_matchesWord {r : OpRow} (hr : r ∈ opcodeMap) {w : Word} (h : r.matchesWord w = true) :
    opField w = opField r.pattern := by
  have wholeOp : w.extractLsb' 24 8 &&& r.mask.extractLsb' 24 8 = w.extractLsb' 24 8 := by
    rw [show r.mask.extractLsb' 24 8 = BitVec.allOnes 8 from opField_mask r hr, BitVec.and_allOnes]
  rw [← beq_iff_eq.mp h, opField, opField, BitVec.extractLsb'_and, wholeOp]

theorem eq_of_opField_pattern_eq :
    ∀ r ∈ opcodeMap, ∀ q ∈ opcodeMap, opField r.pattern = opField q.pattern → r = q := by
  decide

/-- The rows do not overlap: one word's OP is one row's. -/
theorem eq_of_matchesWord {r q : OpRow} (hr : r ∈ opcodeMap) (hq : q ∈ opcodeMap) {w : Word}
    (hrw : r.matchesWord w = true) (hqw : q.matchesWord w = true) : r = q :=
  eq_of_opField_pattern_eq r hr q hq ((opField_of_matchesWord hr hrw).symm.trans (opField_of_matchesWord hq hqw))

/-- Every command has a row of its mnemonic and its OP. -/
theorem exists_opRow_mem (i : Instr) : ∃ unused, opRow i.mnemonic i.op unused ∈ opcodeMap := by
  cases i with
  | seed | advance | runguess | runseq => exact ⟨0xFFFFFF, by simp [opcodeMap_eq, Instr.mnemonic, Instr.op]⟩
  | draw => exact ⟨0xFFFF00, by simp [opcodeMap_eq, Instr.mnemonic, Instr.op]⟩
  | ftest | fclr => exact ⟨0xF8FFFF, by simp [opcodeMap_eq, Instr.mnemonic, Instr.op]⟩
  | digits => exact ⟨0xFF0000, by simp [opcodeMap_eq, Instr.mnemonic, Instr.op]⟩

/-- The row that matches a command's word is that command's. -/
theorem mnemonic_of_matchesWord {r : OpRow} (hr : r ∈ opcodeMap) {i : Instr} (h : r.matchesWord (encode i) = true) :
    r.mnemonic = i.mnemonic := by
  obtain ⟨unused, hrow⟩ := exists_opRow_mem i
  have op : opField r.pattern = opField (opRow i.mnemonic i.op unused).pattern :=
    calc opField r.pattern = opField (encode i) := (opField_of_matchesWord hr h).symm
      _ = i.op := opField_encode i
      _ = opField (i.op ++ 0#24) := BitVec.extractLsb'_append_eq_left.symm
  rw [eq_of_opField_pattern_eq r hr _ hrow op, opRow]

/-! ## The operands of a command's word (R81) -/

theorem size_eq_of_encode (size : Byte) : size = (encode (.draw size)).extractLsb' 0 8 := by
  calc size = (size.setWidth 16).extractLsb' 0 8 := by
        rw [BitVec.extractLsb'_setWidth_of_le (by decide), BitVec.extractLsb'_eq_self]
    _ = (immField (encode (.draw size))).extractLsb' 0 8 := by rw [immField_encode, Instr.fieldImm]
    _ = (encode (.draw size)).extractLsb' 0 8 := extractLsb'_extractLsb' _ (by decide)

end Sys2Proof
end

section
/-! PROOFS. The words of assembler lines (30_encoding.md R85, R86). -/

namespace Sys2Proof

/-! ## Commands whose operand is a number in range -/

theorem encode_draw_ofNat {size : Nat} (h : size < 256) :
    encode (.draw (BitVec.ofNat 8 size)) = BitVec.ofNat 32 (0x03 * 2 ^ 24 + size) := by
  have imm : (Instr.draw (BitVec.ofNat 8 size)).fieldImm.toNat = size := by
    rw [Instr.fieldImm, BitVec.toNat_setWidth, BitVec.toNat_ofNat]
    omega
  rw [encode_eq_ofNat, imm]
  simp [Instr.op, Instr.fieldA]

theorem encode_digits_ofNat {v : Nat} (h : v < 65536) :
    encode (.digits (BitVec.ofNat 16 v)) = BitVec.ofNat 32 (0x06 * 2 ^ 24 + v) := by
  have imm : (Instr.digits (BitVec.ofNat 16 v)).fieldImm.toNat = v := by
    rw [Instr.fieldImm, BitVec.toNat_ofNat, Nat.mod_eq_of_lt h]
  rw [encode_eq_ofNat, imm]
  simp [Instr.op, Instr.fieldA]

theorem encode_ftest (f : Flag) : encode (.ftest f) = BitVec.ofNat 32 (0x04 * 2 ^ 24 + f.index.val * 2 ^ 16) := by
  cases f <;> rfl

theorem encode_fclr (f : Flag) : encode (.fclr f) = BitVec.ofNat 32 (0x05 * 2 ^ 24 + f.index.val * 2 ^ 16) := by
  cases f <;> rfl

theorem index_flag_number {n : Nat} (h : n < 8) : (FlagRef.number n).flag.index.val = n := by
  rw [FlagRef.flag, index_ofIndex, Fin.val_ofNat, Nat.mod_eq_of_lt h]

/-! ## Lines -/

/-- A line whose operand is in range exactly when `p` has words exactly then. -/
theorem assemble_eq_ite {l : AsmLine} {ws : List Word} {p : Prop} [Decidable p] (hwf : l.wellFormed = decide p)
    (hws : p → l.expand.map encode = ws) : l.assemble = if p then some ws else none := by
  rw [AsmLine.assemble, hwf]
  by_cases h : p
  · rw [if_pos (decide_eq_true h), if_pos h, hws h]
  · rw [if_neg (by simpa using h), if_neg h]

end Sys2Proof
end

section
/-! PROOFS. An illegal word at CMD (60_exceptions.md R230, R232). -/

namespace Sys2Proof.Machine

theorem writeCmd_of_decode_error {w : Word} {r : Reject} {s : State} (hd : decode w = .error r)
    (hctl : s.ctl ≠ .halted) : writeCmd w s = .next (s.raise .illegal) := by
  rw [writeCmd, if_neg hctl, hd]

end Sys2Proof.Machine
end

section
/-! PROOFS. The obligations of spec/30_encoding.md. -/

namespace Sys2Proof.Proofs

open Sys2Proof Sys2Proof.Machine Sys2Proof.Claims

/-- Settles O1; that the command is well-formed is not needed, since every command is. -/
theorem decodeOfEncodeIsIdentity : Obligations.DecodeOfEncodeIsIdentity :=
  fun i _ => decode_encode i

/-- Settles O2: a word that decodes has the three fields of its command, and a word is its fields. -/
theorem encodeOfDecodeIsIdentity : Obligations.EncodeOfDecodeIsIdentity :=
  fun _ _ => encode_of_decode

/-- Settles O3: a word that decodes and a word that a row matches are the same words by their fields, OP tells the rows
apart, and such a word is its command's own, whose fields are known. -/
theorem legalWordMatchesExactlyOneRow : Obligations.LegalWordMatchesExactlyOneRow := by
  intro w
  refine ⟨?oneRow, fun r hr q hq => eq_of_matchesWord hr hq, ?mnemonic, ?size, ?flag, ?value⟩
  case oneRow =>
    rw [exists_decode_ok_iff, ← exists_row_iff]
    constructor
    · rintro ⟨r, hr, hw⟩
      exact ⟨r, ⟨hr, hw⟩, fun q ⟨hq, hqw⟩ => eq_of_matchesWord hq hr hqw hw⟩
    · exact ExistsUnique.exists
  case mnemonic =>
    intro i hd r hr hw
    obtain rfl := encode_of_decode hd
    exact mnemonic_of_matchesWord hr hw
  case size =>
    intro size hd
    obtain rfl := encode_of_decode hd
    exact size_eq_of_encode size
  case flag =>
    rintro f (hd | hd)
    all_goals
      obtain rfl := encode_of_decode hd
      cases f <;> rfl
  case value =>
    intro v hd
    obtain rfl := encode_of_decode hd
    exact (immField_encode (.digits v)).symm

/-- Settles O4: the words that do not decode are those whose fields R83 lists, and each raises ILLEGAL at CMD. -/
theorem illegalWordsRaiseIllegal : Obligations.IllegalWordsRaiseIllegal := by
  intro w
  refine ⟨(exists_decode_error_iff w).trans (not_legalFields_iff w), fun s ⟨r, hd⟩ hctl => ?_⟩
  have illegal : writeCmd w s = .next (haltedWith s 1) := writeCmd_of_decode_error hd hctl
  exact ⟨illegal, fun free => (act_hostWrite free 0x0 4 w).trans illegal⟩

/-- Settles O5: each sample but the last is its command's own word. -/
theorem sampleWordsDecode : Obligations.SampleWordsDecode :=
  ⟨decode_encode .seed, decode_encode .advance, decode_encode (.draw 255), decode_encode (.ftest .confirm),
    decode_encode (.fclr .timer), decode_encode (.digits 1204), decode_encode .runguess, decode_encode .runseq, rfl⟩

/-- Settles O6: a line in range has the word R85 computes from its command's fields. -/
theorem linesAssembleToCommandWords : Obligations.LinesAssembleToCommandWords := by
  refine ⟨?next, fun _ => rfl, ?single, ⟨rfl, rfl, rfl, rfl⟩, ?draw, ?nextWords, ?digits, ?number, ?name, rfl⟩
  case next => exact fun size h => if_pos (decide_eq_true h)
  case single =>
    intro l notNext
    cases l with
    | next size => exact absurd rfl (notNext size)
    | seed | advance | draw | ftest | fclr | digits | runguess | runseq | ack => rfl
  case draw => exact fun size => assemble_eq_ite rfl fun h => congrArg ([·]) (encode_draw_ofNat h)
  case nextWords => exact fun size => assemble_eq_ite rfl fun h => congrArg ([0x02000000, ·]) (encode_draw_ofNat h)
  case digits => exact fun v => assemble_eq_ite rfl fun h => congrArg ([·]) (encode_digits_ofNat h)
  case number =>
    exact fun n =>
      ⟨assemble_eq_ite rfl fun h => congrArg ([·]) (by rw [encode_ftest, index_flag_number h]),
        assemble_eq_ite rfl fun h => congrArg ([·]) (by rw [encode_fclr, index_flag_number h])⟩
  case name => exact fun f => ⟨congrArg (some [·]) (encode_ftest f), congrArg (some [·]) (encode_fclr f)⟩

end Sys2Proof.Proofs
end

section
/-! PROOFS. What a command does in IDLE and while the GIE is busy (60_exceptions.md R230), and what SEED, ADVANCE, DRAW and
the mix step compute (spec/40_prng.md). -/

namespace Sys2Proof

/-- Bit strings side by side, the lower one laid over the upper one's zeros. -/
theorem append_eq_or {a b : Nat} (hi : BitVec a) (lo : BitVec b) :
    hi ++ lo = (hi ++ 0#b) ||| lo.setWidth (a + b) := by
  apply BitVec.eq_of_toNat_eq
  rw [BitVec.toNat_or, BitVec.toNat_append, BitVec.toNat_append, BitVec.toNat_setWidth_of_le (Nat.le_add_left b a)]
  simp

/-- DRAW's word (40_prng.md R107). -/
theorem encode_draw_eq_or (size : Byte) : encode (.draw size) = 0x03000000 ||| size.setWidth 32 :=
  calc
    encode (.draw size) = (0x03#8 ++ 0x00#8 ++ 0#16) ||| (size.setWidth 16).setWidth 32 := append_eq_or _ _
    _ = 0x03000000 ||| size.setWidth 32 := by
      rw [BitVec.setWidth_setWidth (by decide), show 0x03#8 ++ 0x00#8 ++ 0#16 = 0x03000000#32 by decide]
      rfl

end Sys2Proof

namespace Sys2Proof.Machine

/-! ## The commands' own rules -/

section

variable {s : State}

/-- In IDLE a command is its own rule. -/
theorem exec_idle (h : s.ctl = .idle) {i : Instr} {t : State} (hrule : commandRule i s = t) : exec i s = .next t := by
  rw [exec_eq_accept, accept_idle h, hrule]

theorem exec_busy (hi : s.ctl ≠ .idle) (hh : s.ctl ≠ .halted) (i : Instr) : exec i s = .next (s.raise .busy) := by
  rw [exec_eq_accept, accept_busy hi hh]

theorem commandRule_seed_seeded (h : s.seeded = true) : commandRule .seed s = s.raise .reseed := if_pos h

theorem commandRule_seed_unseeded (h : s.seeded = false) : commandRule .seed s = { s with ctl := .seeding 0 } :=
  if_neg (Bool.eq_false_iff.mp h)

theorem commandRule_advance_seeded (h : s.seeded = true) : commandRule .advance s = { s with prng := mix s.prng } :=
  if_pos h

theorem commandRule_advance_unseeded (h : s.seeded = false) : commandRule .advance s = s.raise .unseeded :=
  if_neg (Bool.eq_false_iff.mp h)

theorem commandRule_draw_unseeded (h : s.seeded = false) (size : Byte) :
    commandRule (.draw size) s = s.raise .unseeded :=
  if_pos (by simp [h])

theorem commandRule_draw_zero (h : s.seeded = true) : commandRule (.draw 0) s = s.raise .drawZero :=
  (if_neg (by simp [h])).trans (if_pos rfl)

theorem commandRule_draw (h : s.seeded = true) {size : Byte} (hsize : size ≠ 0) :
    commandRule (.draw size) s = { s with result := drawValue s.prng (size.setWidth 32) } :=
  (if_neg (by simp [h])).trans (if_neg hsize)

end

/-! ## The remainder and the mix step -/

/-- DRAW's value is the remainder by its size, and below it (40_prng.md R107, R110). -/
theorem drawValue_byte (v : Word) {size : Byte} (hsize : size ≠ 0) :
    (drawValue v (size.setWidth 32)).toNat = v.toNat % size.toNat ∧
    (drawValue v (size.setWidth 32)).toNat < size.toNat := by
  have width : (size.setWidth 32).toNat = size.toNat := BitVec.toNat_setWidth_of_le (by omega)
  have pos : 0 < size.toNat := Nat.pos_of_ne_zero fun h => hsize (BitVec.eq_of_toNat_eq h)
  have nonzero : size.setWidth 32 ≠ 0 := fun h => by
    rw [h] at width
    exact absurd width pos.ne
  have value := drawValue_toNat v (size.setWidth 32) nonzero (width ▸ size.isLt.le)
  rw [width] at value
  exact ⟨value, value ▸ Nat.mod_lt _ pos⟩

/-- A logical right shift is the quotient by a power of two. -/
theorem toNat_xorShift (v : Word) (k : Nat) : (v ^^^ (v >>> k)).toNat = v.toNat ^^^ (v.toNat / 2 ^ k) := by
  rw [BitVec.toNat_xor, BitVec.toNat_ushiftRight, Nat.shiftRight_eq_div_pow]

/-- The mix step with its parameters' values (40_prng.md R103). -/
theorem mix_eq (v : Word) :
    mix v = ((v ^^^ (v >>> 13)) * Config.mixM) ^^^ (((v ^^^ (v >>> 13)) * Config.mixM) >>> 16) := rfl

end Sys2Proof.Machine
end

section
/-! PROOFS. Seeding (40_prng.md R102): one sample per step of ENGINE, and the whole run of thirty-two. -/

namespace Sys2Proof.Machine

/-! ## One step -/

section

variable {s : State} {i : Fin 32}

theorem engineStep_sample (hc : s.ctl = .seeding i) (inp : Inputs) (hi : i.val + 1 < 32) :
    engineStep inp s =
      { s with prng := setWordBit s.prng i.val inp.noise, ctl := .seeding ⟨i.val + 1, hi⟩ } :=
  (EngineMove.sample i hc hi).step_eq

theorem engineStep_lastSample (hc : s.ctl = .seeding i) (inp : Inputs) (hi : ¬ i.val + 1 < 32) :
    engineStep inp s =
      { s with prng := setWordBit s.prng i.val inp.noise, seeded := true, ctl := .idle } :=
  (EngineMove.lastSample i hc hi).step_eq

end

/-! ## The samples written one after the other -/

/-- The samples in the bits of a word from bit `i` up, the first one lowest. -/
def writeSamples : Nat → List Bool → Word → Word
  | _, [], v => v
  | i, b :: bs, v => writeSamples (i + 1) bs (setWordBit v i b)

theorem getLsbD_writeSamples (bs : List Bool) {i : Nat} (hlen : i + bs.length ≤ 32) (v : Word) {j : Nat}
    (hj : j < 32) :
    (writeSamples i bs v).getLsbD j = if i ≤ j then bs.getD (j - i) (v.getLsbD j) else v.getLsbD j := by
  induction bs generalizing i v with
  | nil => simp [writeSamples]
  | cons b bs ih =>
    rw [List.length_cons] at hlen
    rw [writeSamples, ih (by omega), getLsbD_setWordBit v i b (by omega) j hj]
    rcases lt_trichotomy j i with below | rfl | above
    · simp [show ¬ i + 1 ≤ j by omega, show ¬ i ≤ j by omega, below.ne]
    · simp
    · have next : j - i = (j - (i + 1)) + 1 := by omega
      simp [show i + 1 ≤ j by omega, above.le, above.ne', next]

/-- Thirty-two samples fill the word, whatever it held. -/
theorem getLsbD_writeSamples_finRange (b : Fin 32 → Bool) (v : Word) (i : Fin 32) :
    (writeSamples 0 ((List.finRange 32).map b) v).getLsbD i.val = b i := by
  rw [getLsbD_writeSamples _ (by simp) v i.isLt]
  simp

/-! ## The run -/

theorem run_succ {s t : State} (h : step s = .next t) (k : Nat) :
    Sys2Proof.core.run (k + 1) s = Sys2Proof.core.run k t := by
  have hcore : Sys2Proof.core.step s = .next t := h
  simp only [Host.Core.run, hcore]

theorem step_of_engine {s : State} {inp : Inputs} {rest : List Action} (h : s.agenda = .engine inp :: rest) :
    step s = .next (engineStep inp { s with agenda := rest }) := by
  rw [step, nextAction_cons h]
  rfl

/-- From SEEDING(i), the steps that are left write their samples from bit i up and end the seeding. -/
theorem run_seeding (samples : List Inputs) {i : Fin 32} (hlen : i.val + samples.length = 32) {s : State}
    (hc : s.ctl = .seeding i) {rest : List Action} (hag : s.agenda = samples.map Action.engine ++ rest) :
    Sys2Proof.core.run samples.length s =
      .next { s with prng := writeSamples i.val (samples.map Inputs.noise) s.prng, seeded := true, ctl := .idle,
                     agenda := rest } := by
  induction samples generalizing i s with
  | nil => exact absurd hlen i.isLt.ne
  | cons inp samples ih =>
    rw [List.length_cons] at hlen ⊢
    rw [run_succ (step_of_engine hag)]
    by_cases hi : i.val + 1 < 32
    · rw [engineStep_sample (by exact hc) inp hi, ih (by dsimp only; omega) rfl rfl]
      rfl
    · have last : samples = [] := List.eq_nil_of_length_eq_zero (by omega)
      subst last
      rw [engineStep_lastSample (by exact hc) inp hi]
      rfl

end Sys2Proof.Machine
end

section
/-! PROOFS. Who writes S, by agent (40_prng.md R106, 10_state.md R27). -/

namespace Sys2Proof.Machine

variable {s t : State}

theorem CommandMove.prng_eq_or_advance {i : Instr} (m : CommandMove s i t) :
    t.prng = s.prng ∨ (i = .advance ∧ s.seeded = true) := by
  cases m with
  | advance _ h => exact .inr ⟨rfl, h⟩
  | seed | draw | ftest | fclr | digits | runguess | runseq => exact .inl rfl

/-- ENGINE writes S in the seeding states and in the two drawing states. -/
theorem EngineMove.prng_eq_or_writer {policy : CapturePolicy} {inp : Inputs} (m : EngineMove policy inp s t) :
    t.prng = s.prng ∨ (∃ i, s.ctl = .seeding i) ∨ s.ctl = .gSetup ∨ s.ctl = .qPresent := by
  cases m with
  | sample i hc | lastSample i hc => exact .inr (.inl ⟨i, hc⟩)
  | guessSetup _ _ hc => exact .inr (.inr (.inl hc))
  | present _ _ hc => exact .inr (.inr (.inr hc))
  | _ => exact .inl rfl

end Sys2Proof.Machine
end

section
/-! PROOFS. SEEDED and the control state (40_prng.md R101, R102, 60_exceptions.md R234). -/

namespace Sys2Proof.Safety

open Sys2Proof.Machine

/-- A game runs: ENGINE is in a state of a game, its waits included. -/
def InGame (c : Ctl) : Prop := c ≠ .idle ∧ c ≠ .halted ∧ ∀ i, c ≠ .seeding i

variable {s t : State}

theorem seedInv_seeding {i : Fin 32} (h : s.ctl = .seeding i) : SeedInv s ↔ s.seeded = false := by
  simp only [SeedInv, h]

theorem seedInv_rest (h : s.ctl = .idle ∨ s.ctl = .halted) : SeedInv s := by
  rcases h with h | h <;> simp only [SeedInv, h]

theorem seedInv_inGame (h : InGame s.ctl) : SeedInv s ↔ s.seeded = true := by
  obtain ⟨not_idle, not_halted, not_seeding⟩ := h
  unfold SeedInv
  split
  case h_1 i hc => exact absurd hc (not_seeding i)
  case h_2 hc => exact absurd hc not_idle
  case h_3 hc => exact absurd hc not_halted
  all_goals rfl

/-- SeedInv reads only `ctl` and SEEDED. -/
theorem SeedInv.congr (hs : SeedInv s) (hc : t.ctl = s.ctl) (hseeded : t.seeded = s.seeded) : SeedInv t := by
  unfold SeedInv
  rw [hc, hseeded]
  exact hs

theorem inGame_waitTargetCtl (n : WaitTarget) : InGame (waitTargetCtl n) := by
  obtain ⟨not_halted, not_idle, -⟩ := waitTargetCtl_ne n
  exact ⟨not_idle, not_halted, fun i => by cases n <;> simp [waitTargetCtl]⟩

/-- What ENGINE's step does to seeding and the games: nothing, the next sample, back to IDLE, or on within the game. -/
inductive SeedMove (s t : State) : Prop
  | rest (h : t = s)
  | sample (i j : Fin 32) (hs : s.ctl = .seeding i) (ht : t.ctl = .seeding j) (hseeded : t.seeded = s.seeded)
  | ends (ht : t.ctl = .idle)
  | plays (hs : InGame s.ctl) (ht : InGame t.ctl) (hseeded : t.seeded = s.seeded)

theorem engineMove_seedMove {policy : CapturePolicy} {inp : Inputs} (m : EngineMove policy inp s t) : SeedMove s t := by
  cases m with
  | rest | waitSpin => exact .rest rfl
  | sample i hc hi => exact .sample i ⟨i.val + 1, hi⟩ hc rfl rfl
  | lastSample | gameEnd => exact .ends rfl
  | waitEnd n hc => exact .plays (by simp [hc, InGame]) (inGame_waitTargetCtl n) rfl
  | captureNothing hc | captureEvent _ hc =>
    refine .plays (by simp [hc, InGame]) ?_ rfl
    dsimp only
    split <;> simp [InGame]
  | guessPoll hc => exact .plays (by simp [hc, InGame]) (by simp [hc, InGame]) rfl
  | guessSetup _ _ hc | guessConfirm hc | guessWin hc | guessLose hc | entry hc | present _ _ hc
  | presentOff hc | presentLastOff hc | captureInit hc | verifyWin hc | verifyRetry hc | verifyLose hc =>
    exact .plays (by simp [hc, InGame]) (by simp [InGame]) rfl

theorem SeedInv.of_seedMove (hs : SeedInv s) (m : SeedMove s t) : SeedInv t := by
  cases m with
  | rest h => exact h ▸ hs
  | sample i j hsc htc hseeded =>
    rw [seedInv_seeding htc, hseeded]
    exact (seedInv_seeding hsc).mp hs
  | ends htc => exact seedInv_rest (.inl htc)
  | plays hsc htc hseeded =>
    rw [seedInv_inGame htc, hseeded]
    exact (seedInv_inGame hsc).mp hs

/-- SEED checks that SEEDED is 0, RUNGUESS and RUNSEQ that it is 1. -/
theorem SeedInv.of_commandMove {i : Instr} (hs : SeedInv s) (m : CommandMove s i t) : SeedInv t := by
  cases m with
  | seed h => exact (seedInv_seeding rfl).mpr h
  | runguess h | runseq h => exact (seedInv_inGame (by simp [InGame])).mpr h
  | advance | draw | ftest | fclr | digits => exact hs.congr rfl rfl

theorem SeedInv.of_agentMove {a : Action} (hs : SeedInv s) (m : AgentMove s a t) : SeedInv t := by
  cases m with
  | host | source | timerFires | timerRests => exact hs.congr rfl rfl
  | fault => exact seedInv_rest (.inr rfl)
  | command _ _ _ _ _ m => exact hs.of_commandMove m
  | engine _ _ m => exact hs.of_seedMove (engineMove_seedMove m)
  | reset => exact seedInv_rest (.inl rfl)

end Sys2Proof.Safety
end

section
/-! PROOFS. The obligations of spec/40_prng.md. -/

namespace Sys2Proof.Proofs

open Sys2Proof Sys2Proof.Machine Sys2Proof.Safety Sys2Proof.Claims

/-- Settles O18: DRAW's own rule in IDLE, its two checks in order, then the remainder. -/
theorem drawReturnsRemainder : Obligations.DrawReturnsRemainder := by
  intro s size hc
  refine ⟨encode_draw_eq_or size, ?drawn, ?zero, ?unseeded⟩
  case drawn =>
    exact fun hseeded hsize => ⟨_, exec_idle hc (commandRule_draw hseeded hsize), drawValue_byte s.prng hsize⟩
  case zero => exact fun hseeded => exec_idle hc (commandRule_draw_zero hseeded)
  case unseeded => exact fun hseeded => exec_idle hc (commandRule_draw_unseeded hseeded size)

/-- Settles O24: each of the three operations in natural numbers. -/
theorem mixIsXorShiftMultiplyXorShift : Obligations.MixIsXorShiftMultiplyXorShift := by
  refine ⟨fun s => ?_, by decide⟩
  rw [mix_eq, toNat_xorShift, BitVec.toNat_mul, toNat_xorShift]
  rfl

/-- Settles O26: one step writes its bit; the run of thirty-two writes them all. -/
theorem seedingBuildsSeedFromSamples : Obligations.SeedingBuildsSeedFromSamples := by
  refine ⟨fun s i inp hc => ?_, fun s ans rest hc hag => ?_⟩
  · exact ⟨setWordBit s.prng i.val inp.noise, fun j hj => getLsbD_setWordBit s.prng i.val inp.noise i.isLt j hj,
      engineStep_sample hc inp, fun last => engineStep_lastSample hc inp (by omega)⟩
  · refine ⟨_, getLsbD_writeSamples_finRange (fun i => (ans i).noise) s.prng, ?_⟩
    have run := run_seeding ((List.finRange 32).map ans) (by simp) hc (hag.trans (by rw [List.map_map]; rfl))
    rwa [List.length_map, List.length_finRange, List.map_map] at run

/-- Settles O27: every other agent's move leaves S, and of the commands and ENGINE only the stated writers change it. -/
theorem prngChangesOnlyAsStated : Obligations.PrngChangesOnlyAsStated := by
  intro a s t h hne
  cases act_move h with
  | host | fault | source | timerFires | timerRests => exact absurd rfl hne
  | command w i _ hc hd m =>
    obtain ⟨rfl, hseeded⟩ := m.prng_eq_or_advance.resolve_left hne
    exact .inr (.inl ⟨w, rfl, hd, hc, hseeded⟩)
  | engine inp _ m => exact .inl ⟨inp, rfl, m.prng_eq_or_writer.resolve_left hne⟩
  | reset b => exact .inr (.inr ⟨b, rfl⟩)

/-- Settles O57: the commands that start seeding or a game check SEEDED, and seeding ends where it sets SEEDED. -/
theorem stepKeepsSeedInvariant : Obligations.StepKeepsSeedInvariant :=
  fun _ _ => step_keeps (fun _ _ _ hs => hs.congr rfl rfl) fun _ _ _ hs m => hs.of_agentMove m

/-- Settles O16: SEED's own rule in IDLE, and the common BUSY check in SEEDING. -/
theorem seedStartsSeeding : Obligations.SeedStartsSeeding := by
  refine ⟨?starts, ?reseed, ?busy, ?fromReset, rfl⟩
  case starts => exact fun s hc hseeded => exec_idle hc (commandRule_seed_unseeded hseeded)
  case reseed => exact fun s hc hseeded => exec_idle hc (commandRule_seed_seeded hseeded)
  case busy => exact fun s i hc => exec_busy (by simp [hc]) (by simp [hc]) .seed
  case fromReset => exact ⟨_, exec_idle rfl (commandRule_seed_unseeded rfl), rfl, by decide⟩

/-- Settles O17: ADVANCE's own rule in IDLE, and the mix step at the rule's two values. -/
theorem advanceAppliesMix : Obligations.AdvanceAppliesMix := by
  refine ⟨?seeded, ?unseeded, by decide, by decide, rfl⟩
  case seeded => exact fun s hc hseeded => exec_idle hc (commandRule_advance_seeded hseeded)
  case unseeded => exact fun s hc hseeded => exec_idle hc (commandRule_advance_unseeded hseeded)

end Sys2Proof.Proofs
end

section
/-! PROOFS. The event-flag unit (spec/41_event_flags.md): the set steps of the interrupt sources and of TIMER, FTEST and
FCLR as steps of the schedule, and the end of a timed wait. -/

namespace Sys2Proof

/-- FCLR's word (41_event_flags.md R136): its flag's index laid over the opcode. -/
theorem encode_fclr_eq_or (f : Flag) :
    encode (.fclr f) = 0x05000000 ||| (BitVec.ofNat 32 f.index.val <<< 16) := by
  cases f <;> rfl

end Sys2Proof

namespace Sys2Proof.Claims

open Sys2Proof.Machine

/-- Of the state, only TARMED decides whether a step is a set step. -/
theorem IsSetStep.congr {a : Action} {f : Flag} {s t : State} (h : IsSetStep a f s) (harmed : t.tarmed = s.tarmed) :
    IsSetStep a f t :=
  h.imp_right fun ⟨ha, hf, armed⟩ => ⟨ha, hf, harmed.trans armed⟩

end Sys2Proof.Claims

namespace Sys2Proof.Machine

open Sys2Proof.Claims

variable {s : State} {f : Flag} {a : Action} {rest : List Action}

/-! ## The set steps (10_state.md R23, R24) -/

/-- Writing a flag the value it has changes nothing. -/
theorem putFlag_of_flag {b : Bool} (h : s.flag f = b) : s.putFlag f b = s :=
  h ▸ s.putFlag_flag f

theorem act_src (g : Source) (s : State) : act (.src g) s = .next (s.putFlag (sourceFlag g) true) := rfl

theorem act_timer_armed (h : s.tarmed = true) : act .timer s = .next { s.putFlag .timer true with tarmed := false } :=
  congrArg Host.Outcome.next (if_pos h)

/-- A set step sets its flag; beside it, it writes TARMED at most. -/
theorem act_setStep (h : IsSetStep a f s) : ∃ armed, act a s = .next { s.putFlag f true with tarmed := armed } := by
  rcases h with ⟨g, rfl, rfl⟩ | ⟨rfl, rfl, armed⟩
  · exact ⟨s.tarmed, act_src g s⟩
  · exact ⟨false, act_timer_armed armed⟩

/-! ## The schedule's steps (10_state.md R20) -/

theorem step_of_agenda (h : s.agenda = a :: rest) : step s = act a { s with agenda := rest } := by
  rw [step, nextAction_cons h]

/-- A set step that is next. -/
theorem step_of_setStep (h : s.agenda = a :: rest) (hset : IsSetStep a f s) :
    ∃ armed, step s = .next { s.putFlag f true with tarmed := armed, agenda := rest } := by
  rw [step_of_agenda h]
  exact act_setStep (hset.congr rfl)

/-- A free HOST's command that is next, in IDLE, is the command's own rule. -/
theorem step_of_command {i : Instr} (h : s.agenda = command i :: rest) (hc : s.ctl = .idle)
    (free : s.hostStuck = false) : step s = .next (commandRule i { s with agenda := rest }) := by
  rw [step_of_cmdWrite h free (decode_encode i)]
  exact exec_idle (by exact hc) rfl

/-- FTEST f, a set step of f, then a command: the command finds the flag set, and RESULT with the flag's value from
before the set. -/
theorem run_ftest_setStep_command {i : Instr} (h : s.agenda = command (.ftest f) :: a :: command i :: rest)
    (hc : s.ctl = .idle) (free : s.hostStuck = false) (hset : IsSetStep a f s) :
    ∃ armed, Sys2Proof.core.run 3 s = .next (commandRule i
      { s.putFlag f true with result := zext8 (s.flag f), tarmed := armed, agenda := rest }) := by
  have first := step_of_command h hc free
  obtain ⟨armed, second⟩ :=
    step_of_setStep (s := commandRule (.ftest f) { s with agenda := a :: command i :: rest }) rfl
      (hset.congr rfl)
  refine ⟨armed, ?_⟩
  rw [run_succ first, run_succ second, run_succ (step_of_command rfl (by exact hc) (by exact free))]
  rfl

/-! ## The timed wait (41_event_flags.md R140) -/

section

variable {n : WaitTarget}

theorem engineStep_waitEnd (hc : s.ctl = .wait n) (hf : s.flag .timer = true) (inp : Inputs) :
    engineStep inp s = { s.putFlag .timer false with ctl := waitTargetCtl n } :=
  (EngineMove.waitEnd n hc hf).step_eq

theorem engineStep_waitSpin (hc : s.ctl = .wait n) (hf : s.flag .timer = false) (inp : Inputs) :
    engineStep inp s = s :=
  (EngineMove.waitSpin n hc hf).step_eq

/-- TIMER's step and then ENGINE's end an armed wait: the event TIMER posts is the one ENGINE consumes. -/
theorem run_armedWait (hc : s.ctl = .wait n) (armed : s.tarmed = true) {inp : Inputs}
    (h : s.agenda = .timer :: .engine inp :: rest) :
    Sys2Proof.core.run 2 s =
      .next { s.putFlag .timer false with tarmed := false, ctl := waitTargetCtl n, agenda := rest } := by
  have timer : step s = .next { s.putFlag .timer true with tarmed := false, agenda := .engine inp :: rest } := by
    rw [step_of_agenda h]
    exact act_timer_armed armed
  rw [run_succ timer, run_succ (step_of_engine rfl),
    engineStep_waitEnd (by exact hc) (by exact s.flag_putFlag_self .timer true),
    ← s.putFlag_putFlag .timer true false]
  rfl

end

end Sys2Proof.Machine
end

section
/-! PROOFS. The edge detector (41_event_flags.md R142): the lowest lane of a direction vector, and the lanes each policy
selects. -/

namespace Sys2Proof.Machine

/-- A direction vector is non-zero exactly when it has a lane set. -/
theorem exists_lane_iff (v : BitVec 4) : (∃ k : Lane, v.getLsbD k.val = true) ↔ v ≠ 0 := by
  constructor
  · rintro ⟨k, hk⟩ rfl
    simp at hk
  · contrapose!
    intro h
    exact BitVec.eq_of_getLsbD_eq fun i hi => by simpa using h ⟨i, hi⟩

/-- `l` is set in `sel` and no lane below it is. -/
def IsLowestLane (sel : BitVec 4) (l : Lane) : Prop :=
  sel.getLsbD l.val = true ∧ ∀ m : Lane, m < l → sel.getLsbD m.val = false

theorem IsLowestLane.unique {sel : BitVec 4} {j l : Lane} (hj : IsLowestLane sel j) (hl : IsLowestLane sel l) :
    j = l := by
  rcases lt_trichotomy j l with below | heq | above
  · exact absurd hj.1 (Bool.eq_false_iff.mp (hl.2 j below))
  · exact heq
  · exact absurd hl.1 (Bool.eq_false_iff.mp (hj.2 l above))

/-- What each test of `lowestLane` finds is the lowest lane: the tests before it failed. -/
theorem lowestLane_spec (sel : BitVec 4) :
    (sel = 0 ∧ lowestLane sel = none) ∨ ∃ l, IsLowestLane sel l ∧ lowestLane sel = some l := by
  unfold lowestLane
  split_ifs with h0 h1 h2 h3
  · exact .inr ⟨0, ⟨h0, by simp⟩, rfl⟩
  · exact .inr ⟨1, ⟨h1, by simp_all⟩, rfl⟩
  · exact .inr ⟨2, ⟨h2, by simp_all [Fin.forall_fin_succ]⟩, rfl⟩
  · exact .inr ⟨3, ⟨h3, by simp_all [Fin.forall_fin_succ]⟩, rfl⟩
  · refine .inl ⟨not_not.mp fun hne => ?_, rfl⟩
    obtain ⟨k, hk⟩ := (exists_lane_iff sel).mpr hne
    fin_cases k <;> contradiction

theorem lowestLane_eq_some_iff (sel : BitVec 4) (l : Lane) : lowestLane sel = some l ↔ IsLowestLane sel l := by
  rcases lowestLane_spec sel with ⟨rfl, hnone⟩ | ⟨j, hj, hsome⟩
  · rw [hnone]
    simp [IsLowestLane]
  · rw [hsome, Option.some_inj]
    exact ⟨fun h => h ▸ hj, hj.unique⟩

section

variable {base cur : BitVec 4}

/-- A changed level's event is the lowest lane the policy selects; the detector's own test for an empty selection is
that of `lowestLane`. -/
theorem detect_fst_of_ne (h : cur ≠ base) (policy : CapturePolicy) :
    (detect policy base cur).1 = lowestLane (selectLanes policy base cur) := by
  rw [detect, if_neg h]
  split
  case isTrue none_selected => rw [none_selected]; rfl
  case isFalse => rfl

theorem detect_fst_self (policy : CapturePolicy) : (detect policy base base).1 = none := by
  rw [detect, if_pos rfl]

/-- A changed level's event is lane l, for a policy that selects the lanes with property `p`. -/
theorem detect_eq_some_iff {policy : CapturePolicy} {p : Lane → Bool} (h : cur ≠ base)
    (hsel : ∀ m : Lane, (selectLanes policy base cur).getLsbD m.val = p m) (l : Lane) :
    (detect policy base cur).1 = some l ↔ p l = true ∧ ∀ m : Lane, m < l → p m = false := by
  simp only [detect_fst_of_ne h, lowestLane_eq_some_iff, IsLowestLane, hsel]

/-- PRESS_NEW selects the newly asserted lanes. -/
theorem getLsbD_selectLanes_pressNew (m : Lane) :
    (selectLanes .pressNew base cur).getLsbD m.val = (cur.getLsbD m.val && !base.getLsbD m.val) := by
  simp [selectLanes]

/-- ANY_CHANGE selects the changed lanes. -/
theorem getLsbD_selectLanes_anyChange (m : Lane) :
    (selectLanes .anyChange base cur).getLsbD m.val = (cur.getLsbD m.val != base.getLsbD m.val) :=
  BitVec.getLsbD_xor

/-- PRESS_LEVEL selects every asserted lane when one is newly asserted, and none otherwise. -/
theorem selectLanes_pressLevel :
    selectLanes .pressLevel base cur = if selectLanes .pressNew base cur ≠ 0 then cur else 0 := rfl

theorem detect_pressLevel_eq_some_iff (h : cur ≠ base) (l : Lane) :
    (detect .pressLevel base cur).1 = some l ↔
      (∃ k : Lane, (cur.getLsbD k.val && !base.getLsbD k.val) = true) ∧ cur.getLsbD l.val = true ∧
      ∀ m : Lane, m < l → cur.getLsbD m.val = false := by
  have pressed : (∃ k : Lane, (cur.getLsbD k.val && !base.getLsbD k.val) = true) ↔
      selectLanes .pressNew base cur ≠ 0 := by
    simp only [← getLsbD_selectLanes_pressNew, exists_lane_iff]
  rw [detect_fst_of_ne h, pressed, selectLanes_pressLevel]
  split
  case isTrue new => rw [lowestLane_eq_some_iff, IsLowestLane, and_iff_right new]
  case isFalse none_new => exact iff_of_false nofun fun event => none_new event.1

end

end Sys2Proof.Machine
end

section
/-! PROOFS. The obligations of spec/41_event_flags.md on the flag bank, the timed wait and the edge detector. -/

namespace Sys2Proof.Proofs

open Sys2Proof Sys2Proof.Machine Sys2Proof.Claims

/-- Settles O31: RESULT keeps what FTEST read before the set, and FCLR clears whatever the bank holds when it runs. -/
theorem setBetweenTestAndClearIsLost : Obligations.SetBetweenTestAndClearIsLost := by
  intro s f a rest hc free hset
  refine ⟨?lost, ?kept, ?seen⟩
  case lost =>
    intro hf h
    obtain ⟨armed, run⟩ := run_ftest_setStep_command h hc free hset
    exact ⟨_, run, congrArg zext8 hf, State.flag_putFlag_self _ f false⟩
  case kept =>
    intro h
    obtain ⟨armed, second⟩ :=
      step_of_setStep (s := commandRule (.fclr f) { s with agenda := a :: rest }) rfl (hset.congr rfl)
    exact ⟨_, (run_succ (step_of_command h hc free) 1).trans (run_succ second 0), State.flag_putFlag_self _ f true⟩
  case seen =>
    intro hf h
    obtain ⟨armed, run⟩ := run_ftest_setStep_command h hc free hset
    exact ⟨_, _, run_succ (step_of_command h hc free) 0, congrArg zext8 hf, run,
      congrArg zext8 (s.flag_putFlag_self f true)⟩

/-- Settles O32: ENGINE's two moves in WAIT(n), and the run of TIMER's step before its ending one. -/
theorem armedWaitEndsAfterTimer : Obligations.ArmedWaitEndsAfterTimer := by
  intro s n inp hc
  refine ⟨?ends, ?spins, ?armed⟩
  case ends =>
    exact fun hf => ⟨_, engineStep_waitEnd hc hf inp, s.flag_putFlag_self .timer false,
      fun g hg => s.flag_putFlag_of_ne hg false, rfl⟩
  case spins => exact fun hf => engineStep_waitSpin hc hf inp
  case armed =>
    exact fun rest armed h => ⟨_, run_armedWait hc armed h, s.flag_putFlag_self .timer false,
      fun g hg => s.flag_putFlag_of_ne hg false, rfl⟩

/-- Settles O20: the flag bank after FCLR, and a set step after it, which reads no flag. -/
theorem fclrClearsFlag : Obligations.FclrClearsFlag := by
  intro s f hc
  refine ⟨encode_fclr_eq_or f, s.putFlag f false, exec_idle hc rfl, s.flag_putFlag_self f false,
    fun g hg => s.flag_putFlag_of_ne hg false, rfl, fun a hset => ?_⟩
  obtain ⟨armed, hact⟩ := act_setStep hset
  exact ⟨_, hact, (s.putFlag f false).flag_putFlag_self f true⟩

/-- Settles O28: each agent's step is one write of its own flag, in every control state. -/
theorem interruptStepsSetTheirFlag : Obligations.InterruptStepsSetTheirFlag := by
  intro s
  refine ⟨fun f => ?source, fun armed => ?timer⟩
  case source =>
    exact ⟨_, act_src f s, s.flag_putFlag_self _ true, fun g hg => s.flag_putFlag_of_ne hg true, rfl,
      putFlag_of_flag⟩
  case timer =>
    exact ⟨_, act_timer_armed armed, s.flag_putFlag_self .timer true, rfl,
      fun g hg => s.flag_putFlag_of_ne hg true, rfl⟩

/-- Settles O33: each policy's event is the lowest lane of its selection, read lane by lane. -/
theorem detectorNamesLowestLane : Obligations.DetectorNamesLowestLane := by
  refine ⟨rfl, fun policy base cur => ⟨detect_snd policy base cur, ?same, fun l hne =>
    ⟨?pressNew, ?anyChange, ?pressLevel⟩⟩⟩
  case same =>
    rintro rfl
    exact detect_fst_self policy
  case pressNew => exact detect_eq_some_iff hne getLsbD_selectLanes_pressNew l
  case anyChange => exact detect_eq_some_iff hne getLsbD_selectLanes_anyChange l
  case pressLevel => exact detect_pressLevel_eq_some_iff hne l

end Sys2Proof.Proofs
end

section
/-! PROOFS. The digit routine (42_guess_number.md R160 to R162): the power of ten it starts from is the value's leading
place, and from there it peels off one decimal place a round. -/

namespace Sys2Proof.Machine

/-! ## The leading place -/

/-- The first loop stops at the largest power of ten that the value reaches, which is 1 for the value 0. -/
theorem growPower_pow (fuel v k : Nat) (below : k ≤ Nat.log 10 v) (enough : Nat.log 10 v ≤ k + fuel) :
    growPower fuel v (10 ^ k) = 10 ^ Nat.log 10 v := by
  induction fuel generalizing k with
  | zero => rw [growPower, le_antisymm below enough]
  | succ fuel ih =>
    rw [growPower, ← Nat.pow_succ]
    split
    case isTrue reached => exact ih (k + 1) (Nat.le_log_of_pow_le (by decide) reached) (by omega)
    case isFalse beyond =>
      have : Nat.log 10 v < k + 1 := Nat.log_lt_of_lt_pow' k.succ_ne_zero (Nat.lt_of_not_le beyond)
      rw [show k = Nat.log 10 v by omega]

/-- A u16 has at most five decimal places. -/
theorem log_toNat_lt (v : BitVec 16) : Nat.log 10 v.toNat < 5 :=
  Nat.log_lt_of_lt_pow' (by decide) (v.isLt.trans (by decide))

/-! ## One place a round -/

/-- The decimal digits of `v` from the place of `10 ^ m` down to the units. -/
def placeDigits : (m v : Nat) → List (BitVec 4)
  | 0, v => [BitVec.ofNat 4 v]
  | m + 1, v => BitVec.ofNat 4 (v / 10 ^ (m + 1)) :: placeDigits m (v % 10 ^ (m + 1))

theorem peelDigits_zero (fuel v : Nat) : peelDigits fuel v 0 = [] := by
  cases fuel <;> rfl

/-- The second loop's rounds are the places: the power goes down by one place a round and ends after the units. -/
theorem peelDigits_pow {fuel m : Nat} (enough : m < fuel) (v : Nat) : peelDigits fuel v (10 ^ m) = placeDigits m v := by
  obtain ⟨fuel, rfl⟩ := Nat.exists_eq_succ_of_ne_zero (Nat.ne_zero_of_lt enough)
  induction m generalizing fuel v with
  | zero => simp [peelDigits, placeDigits, peelDigits_zero]
  | succ m ih =>
    obtain ⟨fuel, rfl⟩ := Nat.exists_eq_succ_of_ne_zero (n := fuel) (by omega)
    rw [peelDigits, if_pos (Nat.pow_pos (by decide)), placeDigits, Nat.pow_succ, Nat.mul_div_cancel _ (by decide),
      ih _ _ (by omega)]

/-- The digit routine gives the digits of a u16 from its leading place down. -/
theorem digitsOf_eq_placeDigits (v : BitVec 16) : digitsOf v = placeDigits (Nat.log 10 v.toNat) v.toNat := by
  have fits := log_toNat_lt v
  have grown : growPower 5 v.toNat 1 = 10 ^ Nat.log 10 v.toNat := growPower_pow 5 v.toNat 0 (by omega) (by omega)
  rw [digitsOf, grown, peelDigits_pow fits]

theorem length_placeDigits (m v : Nat) : (placeDigits m v).length = m + 1 := by
  induction m generalizing v with
  | zero => rfl
  | succ m ih => rw [placeDigits, List.length_cons, ih]

theorem head?_placeDigits (m v : Nat) : (placeDigits m v).head? = some (BitVec.ofNat 4 (v / 10 ^ m)) := by
  cases m with
  | zero => simp [placeDigits]
  | succ m => rfl

/-! ## The digits of a value whose leading place is given -/

/-- The value over its leading place is one decimal digit, which a u4 holds. -/
theorem toNat_leadingDigit {v m : Nat} (hv : v < 10 ^ (m + 1)) :
    (BitVec.ofNat 4 (v / 10 ^ m)).toNat = v / 10 ^ m ∧ v / 10 ^ m ≤ 9 := by
  have decimal : v / 10 ^ m < 10 := Nat.div_lt_of_lt_mul (by rwa [← Nat.pow_succ])
  exact ⟨Nat.mod_eq_of_lt (by omega), by omega⟩

theorem toNat_le_nine_of_mem_placeDigits {m v : Nat} (hv : v < 10 ^ (m + 1)) {d : BitVec 4}
    (hd : d ∈ placeDigits m v) : d.toNat ≤ 9 := by
  induction m generalizing v with
  | zero =>
    obtain rfl := List.mem_singleton.mp hd
    rw [BitVec.toNat_ofNat]
    omega
  | succ m ih =>
    rcases List.mem_cons.mp hd with rfl | hrest
    · obtain ⟨held, decimal⟩ := toNat_leadingDigit hv
      omega
    · exact ih (Nat.mod_lt v (Nat.pow_pos (by decide))) hrest

/-- Read most significant first, the digits give the value back, behind whatever was read before them. -/
theorem foldl_placeDigits {m v : Nat} (hv : v < 10 ^ (m + 1)) (acc : Nat) :
    (placeDigits m v).foldl (fun acc d => 10 * acc + d.toNat) acc = acc * 10 ^ (m + 1) + v := by
  induction m generalizing v acc with
  | zero =>
    rw [placeDigits, List.foldl_cons, List.foldl_nil, BitVec.toNat_ofNat]
    omega
  | succ m ih =>
    rw [placeDigits, List.foldl_cons, ih (Nat.mod_lt v (Nat.pow_pos (by decide))), (toNat_leadingDigit hv).1]
    calc (10 * acc + v / 10 ^ (m + 1)) * 10 ^ (m + 1) + v % 10 ^ (m + 1)
        = acc * 10 ^ (m + 1 + 1) + (10 ^ (m + 1) * (v / 10 ^ (m + 1)) + v % 10 ^ (m + 1)) := by ring
      _ = acc * 10 ^ (m + 1 + 1) + v := by rw [Nat.div_add_mod]

/-! ## The digits of a u16 -/

theorem toNat_lt_pow_log (v : BitVec 16) : v.toNat < 10 ^ (Nat.log 10 v.toNat + 1) :=
  Nat.lt_pow_succ_log_self (by decide) v.toNat

/-- The place the digits start from is reached by every value but 0, so only 0 starts with a 0. -/
theorem eq_zero_of_head?_digitsOf {v : BitVec 16} (h : (digitsOf v).head? = some 0) : v = 0 := by
  rw [digitsOf_eq_placeDigits, head?_placeDigits, Option.some_inj] at h
  have quotient : v.toNat / 10 ^ Nat.log 10 v.toNat = 0 := by
    rw [← (toNat_leadingDigit (toNat_lt_pow_log v)).1, h]
    rfl
  by_contra nonzero
  have reached : 10 ^ Nat.log 10 v.toNat ≤ v.toNat :=
    Nat.pow_log_le_self 10 fun h => nonzero (BitVec.eq_of_toNat_eq h)
  exact (Nat.div_pos reached (Nat.pow_pos (by decide))).ne' quotient

/-- How many places a value has, by its size. -/
theorem log_add_one_eq_ite {v : Nat} (hv : v ≤ 9999) :
    Nat.log 10 v + 1 = if v ≤ 9 then 1 else if v ≤ 99 then 2 else if v ≤ 999 then 3 else 4 := by
  split_ifs with one two three
  · rw [Nat.log_of_lt (by omega)]
  · rw [Nat.log_eq_of_pow_le_of_lt_pow (m := 1) (by omega) (by omega)]
  · rw [Nat.log_eq_of_pow_le_of_lt_pow (m := 2) (by omega) (by omega)]
  · rw [Nat.log_eq_of_pow_le_of_lt_pow (m := 3) (by omega) (by omega)]

end Sys2Proof.Machine
end

section
/-! PROOFS. DIGITS and the games' commands in IDLE (42_guess_number.md R163, R170, 43_sequence_memory.md R190), and
ENGINE's step in each state of Guess-The-Number (R171 to R178). -/

namespace Sys2Proof

/-- DIGITS's word (42_guess_number.md R163). -/
theorem encode_digits_eq_or (v : BitVec 16) : encode (.digits v) = 0x06000000 ||| v.setWidth 32 :=
  append_eq_or (0x06#8 ++ 0x00#8) v

end Sys2Proof

namespace Sys2Proof.Machine

variable {s : State}

/-! ## The commands' own rules -/

theorem commandRule_digits {v : BitVec 16} (h : v.toNat ≤ 9999) : commandRule (.digits v) s = s.emitDigits v :=
  if_neg (Nat.not_lt_of_le h)

theorem commandRule_digits_range {v : BitVec 16} (h : 9999 < v.toNat) :
    commandRule (.digits v) s = s.raise .digitRange := if_pos h

theorem commandRule_runguess_seeded (h : s.seeded = true) : commandRule .runguess s = { s with ctl := .gSetup } :=
  if_pos h

theorem commandRule_runguess_unseeded (h : s.seeded = false) : commandRule .runguess s = s.raise .unseeded :=
  if_neg (Bool.eq_false_iff.mp h)

theorem commandRule_runseq_seeded (h : s.seeded = true) : commandRule .runseq s = { s with ctl := .qEntry } :=
  if_pos h

theorem commandRule_runseq_unseeded (h : s.seeded = false) : commandRule .runseq s = s.raise .unseeded :=
  if_neg (Bool.eq_false_iff.mp h)

/-! ## The target -/

/-- The target is the remainder by 255, so it is never 255 (42_guess_number.md R171). -/
theorem toNat_drawValue_guessRange (p : Word) : (drawValue p Config.guessRange).toNat = p.toNat % 255 :=
  drawValue_toNat p Config.guessRange (by decide) (by decide)

theorem toNat_drawValue_guessRange_le (p : Word) : (drawValue p Config.guessRange).toNat ≤ 254 := by
  rw [toNat_drawValue_guessRange]
  omega

/-! ## ENGINE's steps -/

theorem engineStep_gSetup (hc : s.ctl = .gSetup) (inp : Inputs) :
    engineStep inp s =
      { s with prng := mix s.prng, target := drawValue (mix s.prng) Config.guessRange, ctl := .gAwait,
               trace := s.trace ++ [.extAll, .disp .prompt] } := by
  rw [engineStep, (EngineMove.guessSetup _ _ hc rfl rfl).step_eq, List.append_assoc]
  rfl

theorem engineStep_gAwait_confirm (hc : s.ctl = .gAwait) (hf : s.flag .confirm = true) (inp : Inputs) :
    engineStep inp s =
      { s.putFlag .confirm false with capt := inp.sw, tarmed := true, ctl := .wait .gShow,
                                      trace := s.trace ++ [.tstart .check] } :=
  (EngineMove.guessConfirm hc hf).step_eq

theorem engineStep_gAwait_poll (hc : s.ctl = .gAwait) (hf : s.flag .confirm = false) (inp : Inputs) :
    engineStep inp s = { s with capt := inp.sw } :=
  (EngineMove.guessPoll hc hf).step_eq

/-- The records that show the judgement: win, or lose with the capture and the target (42_guess_number.md R174). -/
def judgement (capt target : Byte) : List Event :=
  if capt = target then [.disp .win]
  else
    [Event.disp .lose] ++ ((digitsOf (capt.setWidth 16)).map fun d => Event.disp (.digit d)) ++
      [Event.disp (.value target)]

theorem engineStep_gShow (hc : s.ctl = .gShow) (inp : Inputs) :
    engineStep inp s =
      { s with outc := decide (s.capt = s.target), tarmed := true, ctl := .wait .gEnd,
               trace := s.trace ++ judgement s.capt s.target ++ [.tstart .result] } := by
  by_cases h : s.capt = s.target
  · rw [engineStep, (EngineMove.guessWin hc h).step_eq, judgement, if_pos h, decide_eq_true h]
  · rw [engineStep, (EngineMove.guessLose hc h).step_eq, judgement, if_neg h, decide_eq_false h]
    simp only [List.append_assoc]

theorem engineStep_gameEnd (hc : s.ctl = .gEnd ∨ s.ctl = .qEnd) (inp : Inputs) :
    engineStep inp s = { s with result := zext8 s.outc, ctl := .idle } :=
  (EngineMove.gameEnd hc).step_eq

end Sys2Proof.Machine
end

section
/-! PROOFS. A whole round of Guess-The-Number on one schedule (42_guess_number.md R179), stretch by stretch: the start,
the capture, the wait before the judgement, and the judgement with the wait after it. -/

namespace Sys2Proof.Machine

open Sys2Proof.Claims

variable {s t : State} {rest : List Action}

/-- A run goes on from where its first part ends. -/
theorem run_add {k : Nat} (h : Sys2Proof.core.run k s = .next t) (m : Nat) :
    Sys2Proof.core.run (k + m) s = Sys2Proof.core.run m t := by
  induction k generalizing s with
  | zero =>
    cases h
    rw [Nat.zero_add]
  | succ k ih =>
    obtain ⟨u, hstep⟩ : ∃ u, step s = .next u := exists_act_next s.nextAction.1 s.nextAction.2
    rw [run_succ hstep] at h
    rw [Nat.succ_add, run_succ hstep, ih h]

theorem step_of_src {f : Source} (h : s.agenda = .src f :: rest) :
    step s = .next { s.putFlag (sourceFlag f) true with agenda := rest } := by
  rw [step_of_agenda h]
  rfl

/-- RUNGUESS, then G_SETUP. -/
theorem run_guessStart (hc : s.ctl = .idle) (seeded : s.seeded = true) (free : s.hostStuck = false) {inp : Inputs}
    (h : s.agenda = command .runguess :: .engine inp :: rest) :
    Sys2Proof.core.run 2 s =
      .next { s with prng := mix s.prng, target := drawValue (mix s.prng) Config.guessRange, ctl := .gAwait,
                     trace := s.trace ++ [.extAll, .disp .prompt], agenda := rest } := by
  have start := step_of_command h hc free
  rw [commandRule_runguess_seeded (by exact seeded)] at start
  rw [run_succ start, run_succ (step_of_engine rfl), engineStep_gSetup rfl]
  rfl

/-- CONFIRM's source, then G_AWAIT: the step consumes the event and arms the wait before the judgement. -/
theorem run_guessCapture (hc : s.ctl = .gAwait) {inp : Inputs} (h : s.agenda = .src .confirm :: .engine inp :: rest) :
    Sys2Proof.core.run 2 s =
      .next { s.putFlag .confirm false with capt := inp.sw, tarmed := true, ctl := .wait .gShow,
                                            trace := s.trace ++ [.tstart .check], agenda := rest } := by
  rw [run_succ (step_of_src h), run_succ (step_of_engine rfl),
    engineStep_gAwait_confirm (by exact hc) (by exact s.flag_putFlag_self .confirm true),
    ← s.putFlag_putFlag .confirm true false]
  rfl

/-- G_SHOW, the wait it arms, then G_END. -/
theorem run_guessJudge (hc : s.ctl = .gShow) {i j k : Inputs}
    (h : s.agenda = .engine i :: .timer :: .engine j :: .engine k :: rest) :
    Sys2Proof.core.run 4 s =
      .next { s.putFlag .timer false with
        outc := decide (s.capt = s.target), tarmed := false, result := zext8 (decide (s.capt = s.target)),
        ctl := .idle, trace := s.trace ++ judgement s.capt s.target ++ [.tstart .result], agenda := rest } := by
  have judge := step_of_engine h
  rw [engineStep_gShow (by exact hc)] at judge
  rw [run_succ judge, run_add (run_armedWait rfl rfl rfl) 1, run_succ (step_of_engine rfl),
    engineStep_gameEnd (.inl rfl)]
  rfl

/-- The ten steps of the round, for the target `v` it draws. -/
theorem run_guessRound (hc : s.ctl = .idle) (seeded : s.seeded = true) (free : s.hostStuck = false)
    {i1 i2 i3 i4 i5 i6 : Inputs}
    (h : s.agenda = command .runguess :: .engine i1 :: .src .confirm :: .engine i2 :: .timer :: .engine i3 ::
      .engine i4 :: .timer :: .engine i5 :: .engine i6 :: rest)
    {v : Byte} (hv : v = drawValue (mix s.prng) Config.guessRange) :
    Sys2Proof.core.run 10 s =
      .next { (s.putFlag .confirm false).putFlag .timer false with
        prng := mix s.prng, target := v, capt := i2.sw, outc := decide (i2.sw = v), tarmed := false,
        result := zext8 (decide (i2.sw = v)), ctl := .idle,
        trace := s.trace ++ [.extAll, .disp .prompt] ++ [.tstart .check] ++ judgement i2.sw v ++ [.tstart .result],
        agenda := rest } := by
  subst hv
  rw [run_add (run_guessStart hc seeded free h) 8, run_add (run_guessCapture rfl rfl) 6,
    run_add (run_armedWait rfl rfl rfl) 4, run_guessJudge rfl rfl,
    ← (s.putFlag .confirm false).putFlag_putFlag .timer false false]
  rfl

end Sys2Proof.Machine
end

section
/-! PROOFS. The registers of Guess-The-Number (42_guess_number.md R171 to R175): TARGET from the draw on, and the
outcome after G_SHOW. -/

namespace Sys2Proof.Safety

open Sys2Proof.Machine

variable {s t : State}

theorem guessInv_drawn (h : s.ctl = .gAwait ∨ s.ctl = .wait .gShow ∨ s.ctl = .gShow) :
    GuessInv s ↔ s.target.toNat ≤ 254 := by
  rcases h with h | h | h <;> simp only [GuessInv, h]

theorem guessInv_judged (h : s.ctl = .wait .gEnd ∨ s.ctl = .gEnd) :
    GuessInv s ↔ s.target.toNat ≤ 254 ∧ (s.outc = true ↔ s.capt = s.target) := by
  rcases h with h | h <;> simp only [GuessInv, h]

/-- Q_CAPTURE leads to states of the other game. -/
theorem guessInv_capturing (h : s.ctl = .qVerify ∨ s.ctl = .qCapture) : GuessInv s := by
  rcases h with h | h <;> simp only [GuessInv, h]

/-- GuessInv reads only `ctl` and the round's registers. -/
theorem GuessInv.congr (hs : GuessInv s) (hc : t.ctl = s.ctl) (htarget : t.target = s.target) (hcapt : t.capt = s.capt)
    (houtc : t.outc = s.outc) : GuessInv t := by
  unfold GuessInv
  rw [hc, htarget, hcapt, houtc]
  exact hs

/-- A wait of the round leads to a state of which the same is known; the other waits are not the round's. -/
theorem GuessInv.of_waitEnd {n : WaitTarget} (hs : GuessInv s) (hc : s.ctl = .wait n) (ht : t.ctl = waitTargetCtl n)
    (htarget : t.target = s.target) (hcapt : t.capt = s.capt) (houtc : t.outc = s.outc) : GuessInv t := by
  unfold GuessInv at hs ⊢
  rw [hc] at hs
  rw [ht, htarget, hcapt, houtc]
  cases n with
  | gShow | gEnd => exact hs
  | qPresent | qPresentOff | qCapInit | qEnd => trivial

theorem GuessInv.of_engineMove {policy : CapturePolicy} {inp : Inputs} (hs : GuessInv s)
    (m : EngineMove policy inp s t) : GuessInv t := by
  cases m with
  | rest | waitSpin => exact hs
  | guessSetup p v _ _ hv =>
    subst hv
    exact (guessInv_drawn (.inl rfl)).mpr (toNat_drawValue_guessRange_le p)
  | guessPoll hc => exact (guessInv_drawn (by exact .inl hc)).mpr ((guessInv_drawn (.inl hc)).mp hs)
  | guessConfirm hc => exact (guessInv_drawn (.inr (.inl rfl))).mpr ((guessInv_drawn (.inl hc)).mp hs)
  | guessWin hc hcapt =>
    exact (guessInv_judged (.inl rfl)).mpr ⟨(guessInv_drawn (.inr (.inr hc))).mp hs, by simp [hcapt]⟩
  | guessLose hc hcapt =>
    exact (guessInv_judged (.inl rfl)).mpr ⟨(guessInv_drawn (.inr (.inr hc))).mp hs, by simp [hcapt]⟩
  | waitEnd n hc => exact hs.of_waitEnd hc rfl rfl rfl rfl
  | captureNothing | captureEvent => exact guessInv_capturing (ite_eq_or_eq _ _ _)
  | sample | lastSample | gameEnd | entry | present | presentOff | presentLastOff | captureInit | verifyWin
  | verifyRetry | verifyLose => trivial

/-- No command touches the round's registers, and none leads into a state where they count. -/
theorem GuessInv.of_commandMove {i : Instr} (hs : GuessInv s) (m : CommandMove s i t) : GuessInv t := by
  cases m with
  | seed | runguess | runseq => trivial
  | advance | draw | ftest | fclr | digits => exact hs.congr rfl rfl rfl rfl

theorem GuessInv.of_agentMove {a : Action} (hs : GuessInv s) (m : AgentMove s a t) : GuessInv t := by
  cases m with
  | host | source | timerFires | timerRests => exact hs.congr rfl rfl rfl rfl
  | fault | reset => trivial
  | command _ _ _ _ _ m => exact hs.of_commandMove m
  | engine _ _ m => exact hs.of_engineMove m

end Sys2Proof.Safety
end

section
/-! PROOFS. The obligations of spec/42_guess_number.md. -/

namespace Sys2Proof.Proofs

open Sys2Proof Sys2Proof.Machine Sys2Proof.Safety Sys2Proof.Claims

/-- Settles O22: the routine gives the value's digits from its leading place down, each fact by induction on the
place. -/
theorem digitsReconstructValue : Obligations.DigitsReconstructValue := by
  intro v hv
  refine ⟨?reads, ?decimal, eq_zero_of_head?_digitsOf, ?count⟩
  case reads => rw [digitsOf_eq_placeDigits, foldl_placeDigits (toNat_lt_pow_log v), Nat.zero_mul, Nat.zero_add]
  case decimal =>
    intro d hd
    rw [digitsOf_eq_placeDigits] at hd
    exact toNat_le_nine_of_mem_placeDigits (toNat_lt_pow_log v) hd
  case count => rw [digitsOf_eq_placeDigits, length_placeDigits, log_add_one_eq_ite hv]

/-- Settles O38: the ten steps of the round, for the target that G_SETUP draws. -/
theorem guessRoundOutput : Obligations.GuessRoundOutput := by
  intro s i1 i2 i3 i4 i5 i6 rest hc seeded free hagenda
  refine ⟨_, run_guessRound hc seeded free hagenda rfl, rfl, rfl, rfl, toNat_drawValue_guessRange _, rfl, ?result,
    ?trace⟩
  case result => simp only [zext8, decide_eq_true_eq]
  case trace => rw [judgement, List.append_assoc s.trace]; rfl

/-- Settles O59: the draw sets TARGET, G_SHOW sets OUTC, and no other move changes what the round's states keep. -/
theorem stepKeepsGuessInvariant : Obligations.StepKeepsGuessInvariant :=
  fun _ _ => step_keeps (fun _ _ _ hs => hs.congr rfl rfl rfl rfl) fun _ _ _ hs m => hs.of_agentMove m

/-- Settles O21: DIGITS's own rule in IDLE. -/
theorem digitsEmitsOrFaults : Obligations.DigitsEmitsOrFaults := fun _ v hc =>
  ⟨encode_digits_eq_or v, rfl, fun h => exec_idle hc (commandRule_digits h),
    fun h => exec_idle hc (commandRule_digits_range h)⟩

/-- Settles O23: the two commands' own rules in IDLE. -/
theorem gameCommandsStartGames : Obligations.GameCommandsStartGames := fun _ hc =>
  ⟨fun seeded =>
      ⟨exec_idle hc (commandRule_runguess_seeded seeded), exec_idle hc (commandRule_runseq_seeded seeded)⟩,
    fun unseeded =>
      ⟨exec_idle hc (commandRule_runguess_unseeded unseeded), exec_idle hc (commandRule_runseq_unseeded unseeded)⟩⟩

/-- Settles O34: ENGINE's step in G_SETUP, whose draw is a remainder. -/
theorem guessSetupDrawsTarget : Obligations.GuessSetupDrawsTarget :=
  fun s inp hc => ⟨_, toNat_drawValue_guessRange (mix s.prng), engineStep_gSetup hc inp⟩

/-- Settles O35: ENGINE's two steps in G_AWAIT, and the flag bank after the one that sees CONFIRM. -/
theorem guessAwaitCapturesOnConfirm : Obligations.GuessAwaitCapturesOnConfirm := fun s inp hc =>
  ⟨fun hf => ⟨_, engineStep_gAwait_confirm hc hf inp, s.flag_putFlag_self .confirm false,
      fun _ hg => s.flag_putFlag_of_ne hg false, rfl⟩,
    fun hf => engineStep_gAwait_poll hc hf inp⟩

/-- Settles O36: ENGINE's step in G_SHOW, its judgement read in each case. -/
theorem guessShowJudgesCapture : Obligations.GuessShowJudgesCapture := by
  intro s inp hc
  refine ⟨fun win => ?_, fun lose => ?_⟩
  · rw [engineStep_gShow hc, judgement, if_pos win, decide_eq_true win, List.append_assoc]
    rfl
  · rw [engineStep_gShow hc, judgement, if_neg lose, decide_eq_false lose]
    simp only [List.append_assoc]
    rfl

/-- Settles O37: one step of ENGINE ends both games. -/
theorem gameEndReturnsOutcome : Obligations.GameEndReturnsOutcome :=
  fun _ inp hc => engineStep_gameEnd hc inp

end Sys2Proof.Proofs
end

section
/-! PROOFS. Lane arrays as records of positions (43_sequence_memory.md R196): what marking and clearing do bit by bit,
and the one lane that shows a recorded position. -/

namespace Sys2Proof.Machine

/-- Marking sets one bit, in one lane. -/
theorem getLsbD_markLane (x : Vector Byte 4) (l m : Lane) (n : BitVec 3) (k : Nat) :
    ((markLane x l n).get m).getLsbD k = ((x.get m).getLsbD k || decide (m = l ∧ k = n.toNat)) := by
  by_cases h : m = l
  · subst h
    have one_bit : (1#8 <<< n.toNat).getLsbD k = decide (k = n.toNat) := by
      rw [← BitVec.twoPow, BitVec.getLsbD_twoPow, decide_eq_true n.isLt, Bool.true_and]
      exact decide_eq_decide.mpr eq_comm
    rw [markLane_get_self, BitVec.getLsbD_or, one_bit]
    simp
  · simp [h]

theorem getLsbD_markLane_self (x : Vector Byte 4) (l : Lane) (n : BitVec 3) :
    ((markLane x l n).get l).getLsbD n.toNat = true := by
  rw [getLsbD_markLane, decide_eq_true ⟨rfl, rfl⟩, Bool.or_true]

theorem lanesEqual_iff_eq (x y : Vector Byte 4) : lanesEqual x y = true ↔ x = y := by
  rw [lanesEqual_iff]
  refine ⟨fun h => Vector.ext fun i hi => ?_, fun h l => h ▸ rfl⟩
  exact h ⟨i, hi⟩

end Sys2Proof.Machine

namespace Sys2Proof.Safety

open Sys2Proof.Machine Sys2Proof.Claims

variable {x y : Vector Byte 4} {n k : Nat}

theorem lanesAt_congr {j : Nat} (h : ∀ l, (x.get l).getLsbD j = (y.get l).getLsbD k) : lanesAt x j = lanesAt y k :=
  List.countP_congr fun l _ => by rw [h l]

theorem lanesAt_eq_zero_iff : lanesAt x k = 0 ↔ ∀ l, (x.get l).getLsbD k = false := by
  simp [lanesAt, List.countP_eq_zero]

/-- A bit set in lane `a` alone is set in one lane. -/
theorem lanesAt_eq_one {a : Lane} (h : ∀ l, (x.get l).getLsbD k = decide (l = a)) : lanesAt x k = 1 := by
  rw [← List.count_finRange a, List.count_eq_countP]
  exact List.countP_congr fun l _ => by simp [h l]

/-- A position in one lane only is on the lane that `laneOf` names, and on no other. -/
theorem exists_laneOf (h : lanesAt x k = 1) :
    ∃ a, laneOf x k = some a ∧ ∀ l, (x.get l).getLsbD k = true ↔ l = a := by
  rw [lanesAt, List.countP_eq_length_filter] at h
  obtain ⟨a, only⟩ := List.length_eq_one_iff.mp h
  refine ⟨a, ?_, fun l => ?_⟩
  · rw [laneOf, ← List.head?_filter, only]
    rfl
  · rw [← List.mem_singleton (b := a), ← only, List.mem_filter]
    exact (and_iff_right (List.mem_finRange l)).symm

theorem laneOf_eq_some_iff (h : lanesAt x k = 1) (l : Lane) : laneOf x k = some l ↔ (x.get l).getLsbD k = true := by
  obtain ⟨a, named, only⟩ := exists_laneOf h
  rw [named, only, Option.some_inj, eq_comm]

/-! ## Recording -/

theorem recordsUpTo_clearLanes : RecordsUpTo clearLanes 0 := fun k => by
  simp [lanesAt_eq_zero_iff]

/-- A position not yet recorded is in no lane. -/
theorem RecordsUpTo.unrecorded (h : RecordsUpTo x n) (hk : n ≤ k) (l : Lane) : (x.get l).getLsbD k = false := by
  by_cases inside : k < 8
  · exact lanesAt_eq_zero_iff.mp ((h ⟨k, inside⟩).trans (if_neg (Nat.not_lt_of_le hk))) l
  · exact BitVec.getLsbD_of_ge _ _ (Nat.le_of_not_lt inside)

theorem RecordsUpTo.lanesAt_eq_one (h : RecordsUpTo x n) (hk : k < n) (inside : k < 8) : lanesAt x k = 1 :=
  (h ⟨k, inside⟩).trans (if_pos hk)

/-- Marking the next position in any lane records it. -/
theorem RecordsUpTo.markLane {p : BitVec 3} (h : RecordsUpTo x p.toNat) (l : Lane) :
    RecordsUpTo (Machine.markLane x l p) (p.toNat + 1) := by
  intro k
  by_cases hk : k.val = p.toNat
  · have only : ∀ m, ((Machine.markLane x l p).get m).getLsbD k.val = decide (m = l) := fun m => by
      simp only [getLsbD_markLane, h.unrecorded (Nat.le_refl _), hk, and_true, Bool.false_or]
    rw [Safety.lanesAt_eq_one only, if_pos (by omega)]
  · have same : ∀ m, ((Machine.markLane x l p).get m).getLsbD k.val = (x.get m).getLsbD k.val := fun m => by
      simp only [getLsbD_markLane, hk, and_false, decide_false, Bool.or_false]
    rw [lanesAt_congr same, h k]
    exact if_congr (by omega) rfl rfl

/-- A record of six positions leaves bits 7:6 clear. -/
theorem RecordsUpTo.lane_lt (h : RecordsUpTo x n) (hn : n ≤ 6) (l : Lane) : (x.get l).toNat < 64 :=
  Nat.lt_pow_two_of_testBit (n := 6) _ fun _ hk => h.unrecorded (hn.trans hk) l

/-- Two records of the same positions agree when every position is on the same lane in both. -/
theorem RecordsUpTo.eq_of_laneOf_eq (hx : RecordsUpTo x n) (hy : RecordsUpTo y n)
    (h : ∀ k < n, laneOf x k = laneOf y k) : x = y := by
  refine (lanesEqual_iff_eq x y).mp ((lanesEqual_iff x y).mpr fun l => BitVec.eq_of_getLsbD_eq fun k inside => ?_)
  by_cases hk : k < n
  · rw [Bool.eq_iff_iff, ← laneOf_eq_some_iff (hx.lanesAt_eq_one hk inside),
      ← laneOf_eq_some_iff (hy.lanesAt_eq_one hk inside), h k hk]
  · rw [hx.unrecorded (Nat.le_of_not_lt hk), hy.unrecorded (Nat.le_of_not_lt hk)]

end Sys2Proof.Safety
end

section
/-! PROOFS. ENGINE's step in each state of Sequence-Memory (43_sequence_memory.md R191 to R197). -/

namespace Sys2Proof.Machine

variable {s : State}

/-- The digit that shows a one-digit byte (42_guess_number.md R160). -/
theorem digitsOf_setWidth {v : Byte} (h : v.toNat < 10) : digitsOf (v.setWidth 16) = [v.setWidth 4] := by
  have same : (v.setWidth 16).toNat = v.toNat := BitVec.toNat_setWidth_of_le (by decide)
  rw [digitsOf_small _ (same ▸ h), same, BitVec.ofNat_toNat]

/-- Q_ENTRY. -/
theorem engineStep_qEntry (hc : s.ctl = .qEntry) (inp : Inputs) :
    engineStep inp s =
      { s with tseq := clearLanes, cseq := clearLanes, lives := 3, stepNo := 0, pos := 0, ctl := .qPresent,
               trace := s.trace ++ [.extAll, .disp .lives, .disp (.digit 3)] } := by
  rw [engineStep, (EngineMove.entry hc).step_eq, digitsOf_setWidth (by decide)]
  simp only [List.append_assoc]
  rfl

/-! ## Counting positions -/

/-- A count below 6 goes up by one; 6 is reached from 5 only. -/
theorem toNat_succ_of_le_five {n : BitVec 3} (h : n.toNat ≤ 5) : (n + 1).toNat = n.toNat + 1 := by
  rw [BitVec.toNat_add]
  exact Nat.mod_eq_of_lt (by change n.toNat + 1 < 8; omega)

theorem succ_eq_seqLen_iff {n : BitVec 3} (h : n.toNat ≤ 5) : n + 1 = Config.seqLen ↔ n.toNat = 5 := by
  rw [← BitVec.toNat_inj, toNat_succ_of_le_five h]
  exact Nat.succ_inj

theorem succ_le_five {n : BitVec 3} (h : n.toNat ≤ 5) (more : n + 1 ≠ Config.seqLen) : (n + 1).toNat ≤ 5 := by
  have below : n.toNat ≠ 5 := mt (succ_eq_seqLen_iff h).mpr more
  rw [toNat_succ_of_le_five h]
  omega

/-! ## The presentation -/

/-- The lane a presentation step draws from the advanced S (43_sequence_memory.md R192, 40_prng.md R109). -/
def drawnLane (p : Word) : Lane := Fin.ofNat 4 (drawValue p Config.lanes).toNat

theorem val_drawnLane (p : Word) : (drawnLane p).val = p.toNat % 4 := by
  have drawn : (drawValue p Config.lanes).toNat = p.toNat % 4 := drawValue_toNat p Config.lanes (by decide) (by decide)
  rw [drawnLane, Fin.val_ofNat, drawn, Nat.mod_mod]

theorem engineStep_qPresent (hc : s.ctl = .qPresent) (inp : Inputs) :
    engineStep inp s =
      { s with prng := mix s.prng, tseq := markLane s.tseq (drawnLane (mix s.prng)) s.stepNo,
               curl := drawnLane (mix s.prng), tarmed := true, ctl := .wait .qPresentOff,
               trace := s.trace ++ [.ind (Config.laneInd (drawnLane (mix s.prng))) true, .tstart .presentOn] } := by
  rw [engineStep, (EngineMove.present _ _ hc rfl rfl).step_eq, List.append_assoc]
  rfl

theorem engineStep_qPresentOff (hc : s.ctl = .qPresentOff) (inp : Inputs) :
    engineStep inp s =
      { s with stepNo := s.stepNo + 1, tarmed := true,
               ctl := .wait (if s.stepNo + 1 = 6 then .qCapInit else .qPresent),
               trace := s.trace ++ [.ind (Config.laneInd s.curl) false, .tstart .presentGap] } := by
  by_cases last : s.stepNo + 1 = 6
  · rw [engineStep, (EngineMove.presentLastOff hc last).step_eq, List.append_assoc, if_pos last]
    rfl
  · rw [engineStep, (EngineMove.presentOff hc last).step_eq, List.append_assoc, if_neg last]
    rfl

/-! ## The judgement -/

theorem engineStep_qVerify_win (hc : s.ctl = .qVerify) (same : lanesEqual s.tseq s.cseq = true) (inp : Inputs) :
    engineStep inp s =
      { s with outc := true, tarmed := true, ctl := .wait .qEnd,
               trace := s.trace ++ [.extAll, .disp .win, .tstart .result] } := by
  rw [engineStep, (EngineMove.verifyWin hc same).step_eq]
  simp only [List.append_assoc]
  rfl

theorem engineStep_qVerify_retry (hc : s.ctl = .qVerify) (differ : lanesEqual s.tseq s.cseq = false)
    (left : 0 < (s.lives - 1).toNat) (digit : (s.lives - 1).toNat < 10) (inp : Inputs) :
    engineStep inp s =
      { s with lives := s.lives - 1, cseq := clearLanes, pos := 0, ctl := .qCapInit,
               trace := s.trace ++ [.extAll, .disp .lives, .disp (.digit ((s.lives - 1).setWidth 4))] } := by
  rw [engineStep, (EngineMove.verifyRetry hc differ left).step_eq, digitsOf_setWidth digit]
  simp only [List.append_assoc]
  rfl

theorem engineStep_qVerify_lose (hc : s.ctl = .qVerify) (differ : lanesEqual s.tseq s.cseq = false)
    (last : s.lives = 1) (inp : Inputs) :
    engineStep inp s =
      { s with lives := 0, cseq := clearLanes, pos := 0, outc := false, tarmed := true, ctl := .wait .qEnd,
               trace := s.trace ++ [.extAll, .disp .lives, .disp (.digit 0), .disp .lose, .tstart .result] } := by
  have gone : s.lives - 1 = 0 := by rw [last]; rfl
  rw [engineStep, (EngineMove.verifyLose hc differ (by rw [gone]; decide)).step_eq, gone,
    digitsOf_setWidth (by decide)]
  simp only [List.append_assoc]
  rfl

end Sys2Proof.Machine
end

section
/-! PROOFS. The whole presentation on one schedule (43_sequence_memory.md R192, R193, R200): what stands after each of
its turns, and one turn more. -/

namespace Sys2Proof.Machine

open Sys2Proof.Claims

variable {s t : State} {rest : List Action} {j : Nat}

/-- The array shows, position by position below `j`, the lanes `d`. -/
def ShowsLanes (x : Vector Byte 4) (d : Nat → Lane) (j : Nat) : Prop :=
  ∀ (l : Lane) (k : Nat), (x.get l).getLsbD k = true ↔ k < j ∧ d k = l

theorem showsLanes_zero {x : Vector Byte 4} (clear : ∀ l, x.get l = 0) (d : Nat → Lane) : ShowsLanes x d 0 :=
  fun l k => by simp [clear l]

theorem ShowsLanes.markLane {x : Vector Byte 4} {d : Nat → Lane} {n : BitVec 3} (h : ShowsLanes x d n.toNat) :
    ShowsLanes (Machine.markLane x (d n.toNat) n) d (n.toNat + 1) := by
  intro l k
  rw [getLsbD_markLane, Bool.or_eq_true, h l k, decide_eq_true_iff, Nat.lt_succ_iff_lt_or_eq, or_and_right]
  exact or_congr_right (and_comm.trans (and_congr_right fun last => last ▸ eq_comm))

/-- `t` is what `j` turns of the presentation make of `s`: `j` draws, each recorded at its own position. -/
structure PresentedUpTo (s : State) (rest : List Action) (j : Nat) (t : State) : Prop where
  ctl : t.ctl = if j = 6 then .qCapInit else .qPresent
  stepNo : t.stepNo.toNat = j
  agenda : t.agenda = (List.replicate (6 - j) presentTurn).flatten ++ rest
  prng : t.prng = mix^[j] s.prng
  tseq : ShowsLanes t.tseq (fun k => drawnLane (mix^[k + 1] s.prng)) j
  cseq : t.cseq = s.cseq
  lives : t.lives = s.lives
  pos : t.pos = s.pos

theorem presentedUpTo_zero (hc : s.ctl = .qPresent) (first : s.stepNo = 0) (clear : ∀ l, s.tseq.get l = 0)
    (h : s.agenda = (List.replicate 6 presentTurn).flatten ++ rest) : PresentedUpTo s rest 0 s where
  ctl := hc
  stepNo := by rw [first]; rfl
  agenda := h
  prng := (Function.iterate_zero_apply mix _).symm
  tseq := showsLanes_zero clear _
  cseq := rfl
  lives := rfl
  pos := rfl

/-- Q_PRESENT and the wait it arms: the lane drawn is lit and recorded. -/
theorem run_presentOn (hc : s.ctl = .qPresent) {i j : Inputs}
    (h : s.agenda = .engine i :: .timer :: .engine j :: rest) :
    Sys2Proof.core.run 3 s =
      .next { s.putFlag .timer false with
        prng := mix s.prng, tseq := markLane s.tseq (drawnLane (mix s.prng)) s.stepNo, curl := drawnLane (mix s.prng),
        tarmed := false, ctl := .qPresentOff,
        trace := s.trace ++ [.ind (Config.laneInd (drawnLane (mix s.prng))) true, .tstart .presentOn],
        agenda := rest } := by
  rw [run_succ (step_of_engine h), engineStep_qPresent (by exact hc), run_armedWait rfl rfl rfl]
  rfl

/-- Q_PRESENT_OFF and the gap it arms: the step is counted. -/
theorem run_presentGap (hc : s.ctl = .qPresentOff) {i j : Inputs}
    (h : s.agenda = .engine i :: .timer :: .engine j :: rest) :
    Sys2Proof.core.run 3 s =
      .next { s.putFlag .timer false with
        stepNo := s.stepNo + 1, tarmed := false, ctl := if s.stepNo + 1 = 6 then .qCapInit else .qPresent,
        trace := s.trace ++ [.ind (Config.laneInd s.curl) false, .tstart .presentGap], agenda := rest } := by
  rw [run_succ (step_of_engine h), engineStep_qPresentOff (by exact hc), run_armedWait rfl rfl rfl,
    apply_ite waitTargetCtl]
  rfl

/-- One turn more: the on-hold and the gap, and the next draw recorded. -/
theorem PresentedUpTo.turn (h : PresentedUpTo s rest j t) (hj : j < 6) :
    ∃ u, Sys2Proof.core.run 6 t = .next u ∧ PresentedUpTo s rest (j + 1) u := by
  have present : t.ctl = .qPresent := h.ctl.trans (if_neg hj.ne)
  have turns : 6 - j = (6 - (j + 1)) + 1 := by omega
  have agenda := h.agenda
  rw [turns, List.replicate_succ, List.flatten_cons, List.append_assoc] at agenda
  refine ⟨_, (run_add (run_presentOn present agenda) 3).trans (run_presentGap rfl rfl), ?_⟩
  have below : t.stepNo.toNat ≤ 5 := h.stepNo.trans_le (Nat.le_of_lt_succ hj)
  have count : (t.stepNo + 1).toNat = j + 1 := by rw [toNat_succ_of_le_five below, h.stepNo]
  have last : t.stepNo + 1 = 6 ↔ j + 1 = 6 := by rw [← count, ← BitVec.toNat_inj]; rfl
  have draw : mix t.prng = mix^[j + 1] s.prng := by rw [h.prng, Function.iterate_succ_apply']
  have shown := ShowsLanes.markLane (n := t.stepNo) (h.stepNo.symm ▸ h.tseq)
  rw [h.stepNo, ← draw] at shown
  exact {
    ctl := if_congr last rfl rfl
    stepNo := count
    agenda := rfl
    prng := draw
    tseq := shown
    cseq := h.cseq
    lives := h.lives
    pos := h.pos }

theorem run_presentation (h : PresentedUpTo s rest 0 s) (hj : j ≤ 6) :
    ∃ t, Sys2Proof.core.run (6 * j) s = .next t ∧ PresentedUpTo s rest j t := by
  induction j with
  | zero => exact ⟨s, rfl, h⟩
  | succ j ih =>
    obtain ⟨t, run_t, presented⟩ := ih (Nat.le_of_succ_le hj)
    obtain ⟨u, run_u, next⟩ := presented.turn hj
    exact ⟨u, (run_add run_t 6).trans run_u, next⟩

end Sys2Proof.Machine
end

section
/-! PROOFS. The registers of a Sequence-Memory session (43_sequence_memory.md R191 to R199, 10_state.md R30): what each
state of the session keeps, and that every move keeps it. -/

namespace Sys2Proof.Safety

open Sys2Proof.Machine

variable {s t : State}

/-! ## The invariant, state by state -/

theorem sequenceInv_presenting (h : s.ctl = .qPresent ∨ s.ctl = .wait .qPresent) :
    SequenceInv s ↔ s.stepNo.toNat ≤ 5 ∧ RecordsUpTo s.tseq s.stepNo.toNat ∧ Untried s := by
  rcases h with h | h <;> simp only [SequenceInv, h]

theorem sequenceInv_lit (h : s.ctl = .wait .qPresentOff ∨ s.ctl = .qPresentOff) :
    SequenceInv s ↔ s.stepNo.toNat ≤ 5 ∧ RecordsUpTo s.tseq (s.stepNo.toNat + 1) ∧
      (s.tseq.get s.curl).getLsbD s.stepNo.toNat = true ∧ Untried s := by
  rcases h with h | h <;> simp only [SequenceInv, h]

theorem sequenceInv_presented (h : s.ctl = .wait .qCapInit) :
    SequenceInv s ↔ RecordsUpTo s.tseq 6 ∧ Untried s := by
  simp only [SequenceInv, h]

theorem sequenceInv_capInit (h : s.ctl = .qCapInit) :
    SequenceInv s ↔ RecordsUpTo s.tseq 6 ∧ RecordsUpTo s.cseq 0 ∧ s.pos = 0 ∧ HasLives s := by
  simp only [SequenceInv, h]

theorem sequenceInv_capture (h : s.ctl = .qCapture) :
    SequenceInv s ↔ RecordsUpTo s.tseq 6 ∧ s.pos.toNat ≤ 5 ∧ RecordsUpTo s.cseq s.pos.toNat ∧ HasLives s := by
  simp only [SequenceInv, h]

theorem sequenceInv_verify (h : s.ctl = .qVerify) :
    SequenceInv s ↔ RecordsUpTo s.tseq 6 ∧ RecordsUpTo s.cseq 6 ∧ s.pos = 6 ∧ HasLives s := by
  simp only [SequenceInv, h]

theorem sequenceInv_win (h : s.ctl = .wait .qEnd) (win : s.outc = true) :
    SequenceInv s ↔ s.tseq = s.cseq ∧ HasLives s := by
  simp only [SequenceInv, h, if_pos win]

theorem sequenceInv_lose (h : s.ctl = .wait .qEnd) (lose : s.outc = false) :
    SequenceInv s ↔ s.lives = 0 ∧ RecordsUpTo s.cseq 0 := by
  simp only [SequenceInv, h, if_neg (Bool.eq_false_iff.mp lose)]

/-! ## Lives -/

theorem Untried.hasLives (h : Untried s) : HasLives s := by
  obtain ⟨three, -⟩ := h
  exact ⟨three ▸ by decide, three.le⟩

/-- A life lost leaves one less. -/
theorem toNat_pred_lives (h : HasLives s) : (s.lives - 1).toNat + 1 = s.lives.toNat := by
  obtain ⟨some_left, -⟩ := h
  have ge : (1 : Byte) ≤ s.lives := some_left
  rw [BitVec.toNat_sub_of_le ge]
  exact Nat.sub_add_cancel some_left

/-! ## The moves -/

theorem SequenceInv.of_waitEnd {n : WaitTarget} (hs : SequenceInv s) (hc : s.ctl = .wait n) :
    SequenceInv { s.putFlag .timer false with ctl := waitTargetCtl n } := by
  cases n with
  | gShow | gEnd => trivial
  | qPresent => exact (sequenceInv_presenting (.inl rfl)).mpr ((sequenceInv_presenting (.inr hc)).mp hs)
  | qPresentOff => exact (sequenceInv_lit (.inr rfl)).mpr ((sequenceInv_lit (.inl hc)).mp hs)
  | qCapInit =>
    obtain ⟨target, untried⟩ := (sequenceInv_presented hc).mp hs
    have lives := untried.hasLives
    obtain ⟨-, pos, capture⟩ := untried
    exact (sequenceInv_capInit rfl).mpr ⟨target, capture, pos, lives⟩
  | qEnd =>
    unfold SequenceInv at hs ⊢
    rw [hc] at hs
    exact hs

/-- A captured event is recorded; the sixth ends the capture. -/
theorem SequenceInv.of_captureEvent (hs : SequenceInv s) (hc : s.ctl = .qCapture) (l : Lane) (base : BitVec 4)
    (tr : List Event) :
    SequenceInv { s with
      base := base, cseq := markLane s.cseq l s.pos, pos := s.pos + 1,
      ctl := if s.pos + 1 = Config.seqLen then .qVerify else .qCapture, trace := tr } := by
  obtain ⟨target, below, capture, lives⟩ := (sequenceInv_capture hc).mp hs
  have recorded := capture.markLane l
  split
  case isTrue last =>
    rw [(succ_eq_seqLen_iff below).mp last] at recorded
    exact (sequenceInv_verify rfl).mpr ⟨target, recorded, last, lives⟩
  case isFalse more =>
    rw [← toNat_succ_of_le_five below] at recorded
    exact (sequenceInv_capture rfl).mpr ⟨target, succ_le_five below more, recorded, lives⟩

theorem SequenceInv.of_engineMove {policy : CapturePolicy} {inp : Inputs} (hs : SequenceInv s)
    (m : EngineMove policy inp s t) : SequenceInv t := by
  cases m with
  | rest | waitSpin => exact hs
  | entry =>
    exact (sequenceInv_presenting (.inl rfl)).mpr
      ⟨Nat.zero_le 5, recordsUpTo_clearLanes, rfl, rfl, recordsUpTo_clearLanes⟩
  | present p l hc =>
    obtain ⟨below, target, untried⟩ := (sequenceInv_presenting (.inl hc)).mp hs
    exact (sequenceInv_lit (.inl rfl)).mpr ⟨below, target.markLane l, getLsbD_markLane_self .., untried⟩
  | presentOff hc more =>
    obtain ⟨below, target, -, untried⟩ := (sequenceInv_lit (.inr hc)).mp hs
    rw [← toNat_succ_of_le_five below] at target
    exact (sequenceInv_presenting (.inr rfl)).mpr ⟨succ_le_five below more, target, untried⟩
  | presentLastOff hc last =>
    obtain ⟨below, target, -, untried⟩ := (sequenceInv_lit (.inr hc)).mp hs
    rw [(succ_eq_seqLen_iff below).mp last] at target
    exact (sequenceInv_presented rfl).mpr ⟨target, untried⟩
  | captureInit hc =>
    obtain ⟨target, capture, pos, lives⟩ := (sequenceInv_capInit hc).mp hs
    refine (sequenceInv_capture rfl).mpr ⟨target, ?_, ?_, lives⟩
    · simp [pos]
    · simpa [pos] using capture
  | captureNothing hc =>
    obtain ⟨target, below, capture, lives⟩ := (sequenceInv_capture hc).mp hs
    have more : s.pos ≠ Config.seqLen := fun full => absurd (full ▸ below) (by decide)
    rw [if_neg more]
    exact (sequenceInv_capture rfl).mpr ⟨target, below, capture, lives⟩
  | captureEvent l hc => exact hs.of_captureEvent hc l inp.dir _
  | verifyWin hc same =>
    obtain ⟨-, -, -, lives⟩ := (sequenceInv_verify hc).mp hs
    exact (sequenceInv_win rfl rfl).mpr ⟨(lanesEqual_iff_eq _ _).mp same, lives⟩
  | verifyRetry hc _ left =>
    obtain ⟨target, -, -, lives⟩ := (sequenceInv_verify hc).mp hs
    have fewer : (s.lives - 1).toNat ≤ 3 := by
      have one_less := toNat_pred_lives lives
      obtain ⟨-, most⟩ := lives
      omega
    exact (sequenceInv_capInit rfl).mpr ⟨target, recordsUpTo_clearLanes, rfl, left, fewer⟩
  | verifyLose hc _ none_left =>
    have gone : s.lives - 1 = 0 := BitVec.eq_of_toNat_eq (Nat.eq_zero_of_not_pos none_left)
    exact (sequenceInv_lose rfl rfl).mpr ⟨gone, recordsUpTo_clearLanes⟩
  | waitEnd n hc => exact hs.of_waitEnd hc
  | guessPoll hc => exact hs
  | sample | lastSample | guessSetup | guessConfirm | guessWin | guessLose | gameEnd => trivial

/-- No command writes the session's registers, and none leads into a state where they count. -/
theorem SequenceInv.of_commandMove {i : Instr} (hs : SequenceInv s) (m : CommandMove s i t) : SequenceInv t := by
  cases m with
  | seed | runguess | runseq => trivial
  | advance | draw | ftest | fclr | digits => exact hs

theorem SequenceInv.of_agentMove {a : Action} (hs : SequenceInv s) (m : AgentMove s a t) : SequenceInv t := by
  cases m with
  | host | source | timerFires | timerRests => exact hs
  | fault | reset => trivial
  | command _ _ _ _ _ m => exact hs.of_commandMove m
  | engine _ _ m => exact hs.of_engineMove m

/-! ## Bits 7:6 of the lane registers -/

/-- A lane array that is marked or cleared within the session is a record of six positions at most. -/
theorem LaneBitsInv.of_engineMove {policy : CapturePolicy} {inp : Inputs} (hs : SequenceInv s) (hb : LaneBitsInv s)
    (m : EngineMove policy inp s t) : LaneBitsInv t := by
  have cleared (l : Lane) : (clearLanes.get l).toNat < 64 := recordsUpTo_clearLanes.lane_lt (by decide) l
  cases m with
  | entry => exact fun l => ⟨cleared l, cleared l⟩
  | present p l hc =>
    obtain ⟨below, target, -⟩ := (sequenceInv_presenting (.inl hc)).mp hs
    exact fun m => ⟨(target.markLane l).lane_lt (by omega) m, (hb m).2⟩
  | captureEvent l hc =>
    obtain ⟨-, below, capture, -⟩ := (sequenceInv_capture hc).mp hs
    exact fun m => ⟨(hb m).1, (capture.markLane l).lane_lt (by omega) m⟩
  | verifyRetry | verifyLose => exact fun l => ⟨(hb l).1, cleared l⟩
  | _ => exact hb

theorem LaneBitsInv.of_agentMove {a : Action} (hs : SequenceInv s) (hb : LaneBitsInv s) (m : AgentMove s a t)
    (no_reset : ∀ b, a ≠ .reset b) : LaneBitsInv t := by
  cases m with
  | host | fault | source | timerFires | timerRests => exact hb
  | command _ _ _ _ _ m => cases m <;> exact hb
  | engine _ _ m => exact hb.of_engineMove hs m
  | reset b => exact absurd rfl (no_reset b)

end Sys2Proof.Safety
end

section
/-! PROOFS. The obligations of spec/43_sequence_memory.md. -/

namespace Sys2Proof.Proofs

open Sys2Proof Sys2Proof.Machine Sys2Proof.Safety Sys2Proof.Claims

/-- Settles O60: every move of an agent keeps the session's registers, and ENGINE's, the only ones that write a lane
register, mark a position below 6 or clear. -/
theorem stepKeepsSequenceInvariant : Obligations.StepKeepsSequenceInvariant := by
  intro s t hs h
  refine ⟨step_keeps (fun _ _ _ hs => hs) (fun _ _ _ hs m => hs.of_agentMove m) hs h, fun no_reset hb => ?_⟩
  have move : AgentMove s.nextAction.2 s.nextAction.1 t := act_move h
  rw [nextAction_snd] at move
  exact LaneBitsInv.of_agentMove (by exact hs) (by exact hb) move no_reset

/-- Settles O43: six turns of the presentation, by induction on their number. -/
theorem presentationRecordsSixDraws : Obligations.PresentationRecordsSixDraws := by
  intro s rest hc first clear agenda
  obtain ⟨t, run, presented⟩ := run_presentation (presentedUpTo_zero hc first clear agenda) (Nat.le_refl 6)
  refine ⟨t, run, presented.ctl, BitVec.eq_of_toNat_eq presented.stepNo, presented.agenda, presented.prng,
    fun l k hk => ?_, presented.cseq, presented.lives, presented.pos⟩
  rw [presented.tseq l k, and_iff_right hk, Fin.ext_iff, val_drawnLane]

/-- Settles O44: ENGINE's steps in Q_CAPINIT and Q_CAPTURE under any policy, and the lanes after a mark. -/
theorem captureRecordsEvents : Obligations.CaptureRecordsEvents := fun _ s _ =>
  ⟨fun hc => (EngineMove.captureInit hc).step_eq,
    fun l hc hev => ⟨_, (EngineMove.captureEvent l hc hev).step_eq, markLane_get_self s.cseq l s.pos,
      fun _ hm => markLane_get_of_ne s.cseq hm s.pos, rfl⟩,
    fun hc hev => (EngineMove.captureNothing hc hev).step_eq⟩

/-- Settles O45: equal arrays win; otherwise the number of lives tells a retry from a loss. -/
theorem verifyJudgesAttempt : Obligations.VerifyJudgesAttempt := by
  intro s inp hc
  rw [← lanesEqual_iff]
  refine ⟨fun same => engineStep_qVerify_win hc same inp, fun differ lives => ?_⟩
  have differ := Bool.eq_false_iff.mpr differ
  have one_less := toNat_pred_lives lives
  obtain ⟨some_left, most⟩ := lives
  by_cases last : s.lives = 1
  · refine ⟨_, engineStep_qVerify_lose hc differ last inp, by rw [last]; rfl, clearLanes_get, fun many => ?_,
      fun _ => rfl⟩
    rw [last] at many
    exact absurd many (by decide)
  · have left : 0 < (s.lives - 1).toNat := by
      have not_one : s.lives.toNat ≠ 1 := fun one => last (BitVec.eq_of_toNat_eq one)
      omega
    exact ⟨_, engineStep_qVerify_retry hc differ left (by omega) inp, one_less, clearLanes_get, fun _ => rfl,
      fun one => absurd (BitVec.eq_of_toNat_eq one) last⟩

/-- Settles O46: each position is on one lane, so the lanes position by position are the arrays. -/
theorem winMeansSameOrderedSequence : Obligations.WinMeansSameOrderedSequence := by
  intro x y hx hy
  rw [lanesEqual_iff_eq]
  refine ⟨⟨fun same _ _ => same ▸ rfl, hx.eq_of_laneOf_eq hy⟩, fun k hk => ?_⟩
  obtain ⟨a, named, -⟩ := exists_laneOf (hx.lanesAt_eq_one hk (by omega))
  exact ⟨a, named⟩

/-- Settles O40: ENGINE's step in Q_ENTRY. -/
theorem sequenceEntryClearsSession : Obligations.SequenceEntryClearsSession := fun _ inp hc =>
  ⟨_, engineStep_qEntry hc inp, fun l => ⟨clearLanes_get l, clearLanes_get l⟩, rfl⟩

/-- Settles O41: ENGINE's step in Q_PRESENT, whose lane is a remainder. -/
theorem presentStepShowsDrawnLane : Obligations.PresentStepShowsDrawnLane := fun s inp hc =>
  ⟨_, engineStep_qPresent hc inp, val_drawnLane (mix s.prng), markLane_get_self s.tseq _ s.stepNo,
    fun _ hl => markLane_get_of_ne s.tseq hl s.stepNo, rfl⟩

/-- Settles O42: ENGINE's step in Q_PRESENT_OFF; the count decides what the gap leads to. -/
theorem presentOffCountsStep : Obligations.PresentOffCountsStep := fun _ inp hc => by
  rw [engineStep_qPresentOff hc inp, apply_ite Ctl.wait]

end Sys2Proof.Proofs
end

section
/-! PROOFS. Faults and HALTED (spec/60_exceptions.md): the ignored writes, the entry into HALTED as a move of HOST's alone,
and what is left to the agents there. -/

namespace Sys2Proof.Machine

variable {s t : State} {a : Action} {i : Instr}

/-! ## Commands (R230, R234) -/

theorem writeCmd_halted (h : s.ctl = .halted) (w : Word) : writeCmd w s = .next s := if_pos h

/-- A command that passes its checks does not end in HALTED. -/
theorem CommandMove.not_halted (m : CommandMove s i t) (hc : s.ctl = .idle) : t.ctl ≠ .halted := by
  rcases m.ctl_cases with h | h | h | h <;> simp [h, hc]

theorem CommandMove.ne_raise (m : CommandMove s i t) (hc : s.ctl = .idle) (c : FaultCause) : t ≠ s.raise c :=
  fun h => m.not_halted hc (congrArg State.ctl h)

/-- FCAUSE tells faults apart (R238). -/
theorem raise_ne_raise {c d : FaultCause} (s : State) (h : faultCode c ≠ faultCode d) : s.raise c ≠ s.raise d :=
  fun same => h (congrArg State.fcause same)

/-- The commands that check SEEDED (R234). -/
def ChecksSeeded : Instr → Prop
  | .advance | .draw _ | .runguess | .runseq => True
  | .seed | .ftest _ | .fclr _ | .digits _ => False

theorem commandRule_unseeded (hi : ChecksSeeded i) (h : s.seeded = false) : commandRule i s = s.raise .unseeded := by
  cases i with
  | advance => exact commandRule_advance_unseeded h
  | draw size => exact commandRule_draw_unseeded h size
  | runguess => exact commandRule_runguess_unseeded h
  | runseq => exact commandRule_runseq_unseeded h
  | seed | ftest | fclr | digits => exact hi.elim

/-- SEED's own fault is RESEED, DIGITS's is DIGIT_RANGE, and FTEST and FCLR have none. -/
theorem commandRule_ne_unseeded (hi : ¬ChecksSeeded i) (hc : s.ctl = .idle) : commandRule i s ≠ s.raise .unseeded := by
  cases i with
  | seed =>
    cases h : s.seeded with
    | true =>
      rw [commandRule_seed_seeded h]
      exact raise_ne_raise s (by decide)
    | false =>
      rw [commandRule_seed_unseeded h]
      exact (CommandMove.seed h).ne_raise hc _
  | ftest f => exact (CommandMove.ftest f).ne_raise hc _
  | fclr f => exact (CommandMove.fclr f).ne_raise hc _
  | digits v =>
    rcases Nat.lt_or_ge 9999 v.toNat with large | small
    · rw [commandRule_digits_range large]
      exact raise_ne_raise s (by decide)
    · rw [commandRule_digits small]
      exact (CommandMove.digits v small).ne_raise hc _
  | advance | draw | runguess | runseq => exact absurd trivial hi

/-! ## Into HALTED (R231) -/

/-- A move that ends in HALTED from outside it raises a fault, and does nothing else. -/
theorem AgentMove.eq_raise (m : AgentMove s a t) (hs : s.ctl ≠ .halted) (ht : t.ctl = .halted) :
    ∃ c, t = s.raise c := by
  cases m with
  | fault _ c => exact ⟨c, rfl⟩
  | host | source | timerFires | timerRests => exact absurd ht hs
  | command _ _ _ hc _ m => exact absurd ht (m.not_halted hc)
  | engine _ _ m => exact absurd (m.halted_iff.mp ht) hs
  | reset => cases ht

/-! ## In HALTED (R240) -/

theorem act_cmdWrite_halted (h : s.ctl = .halted) (w : Word) : act (.hostWrite 0x0 4 w) s = .next s := by
  cases hs : s.hostStuck with
  | true => exact act_of_stuck rfl hs
  | false => rw [act_hostWrite hs, hostWriteStep_cmd, writeCmd_halted h]

theorem act_engine_halted (h : s.ctl = .halted) (inp : Inputs) : act (.engine inp) s = .next s :=
  congrArg Host.Outcome.next (engineStepUnder_rest (.inr h))

/-- In HALTED the moves but the reset's write the flags, TARMED and HOST's own fields at most. -/
theorem AgentMove.frame_halted (m : AgentMove s a t) (h : s.ctl = .halted) (not_reset : ∀ b, a ≠ .reset b) :
    t = { s with flags := t.flags, tarmed := t.tarmed, rdata := t.rdata, hostStuck := t.hostStuck } := by
  cases m with
  | host | source | timerFires | timerRests => rfl
  | fault _ _ hc => exact absurd h hc
  | command _ _ _ hc => cases hc.symm.trans h
  | engine inp t m =>
    obtain rfl : s = t := (engineStepUnder_rest (.inr h)).symm.trans m.step_eq
    rfl
  | reset b => exact absurd rfl (not_reset b)

end Sys2Proof.Machine
end

section
/-! PROOFS. The obligations of spec/60_exceptions.md on the acceptance of commands, the entry into HALTED and what HALTED
still allows. -/

namespace Sys2Proof.Proofs

open Sys2Proof Sys2Proof.Machine Sys2Proof.Safety Sys2Proof.Claims

/-- Settles O11: the write's own two checks, then the command's BUSY check. -/
theorem commandAcceptanceOrder : Obligations.CommandAcceptanceOrder := by
  intro w s
  refine ⟨?write, fun halted => writeCmd_halted halted w, ?illegal, ?busy, ?runs⟩
  case write => exact fun free => act_hostWrite free 0x0 4 w
  case illegal =>
    intro running no_command
    cases hd : decode w with
    | ok i => exact absurd hd (no_command i)
    | error r => exact writeCmd_of_decode_error hd running
  case busy =>
    intro i running not_idle hd
    have busy := exec_busy not_idle running i
    exact ⟨(writeCmd_of_decode hd s).trans busy, busy⟩
  case runs => exact fun i _ hd => writeCmd_of_decode hd s

/-- Settles O13: only a fault of HOST's write enters HALTED, and STATUS is composed of the state it raises. -/
theorem faultEntryChangesNothingElse : Obligations.FaultEntryChangesNothingElse := by
  intro a s t running h halted
  obtain ⟨c, rfl⟩ := (act_move h).eq_raise running halted
  obtain ⟨least, greatest⟩ := faultCode_range c
  obtain ⟨busy_iff, -, fault, -, cause, -⟩ := statusIsComposed (s.raise c)
  exact ⟨faultCode c, least, greatest, rfl, Bool.eq_false_iff.mpr fun busy => (busy_iff.mp busy).2 rfl, fault, cause⟩

/-- Settles O15: each agent's step in HALTED, and the frame of them all. -/
theorem haltedUntilReset : Obligations.HaltedUntilReset := by
  intro s halted
  refine ⟨exec_halted halted, act_cmdWrite_halted halted, act_engine_halted halted, ?reads, ?source, ?timer, ?frame⟩
  case reads => exact fun free => ⟨act_hostRead_admitted free rfl, act_hostRead_admitted free rfl⟩
  case source => exact fun f => ⟨_, act_src f s, s.flag_putFlag_self (sourceFlag f) true⟩
  case timer => exact fun armed => ⟨_, act_timer_armed armed, s.flag_putFlag_self .timer true⟩
  case frame => exact fun a t h not_reset => (act_move h).frame_halted halted not_reset

/-- Settles O12: in IDLE a command is its own rule, and four of the rules check SEEDED. -/
theorem unseededCommandsFault : Obligations.UnseededCommandsFault := by
  intro s hc
  refine ⟨fun unseeded => ?faults, ?never⟩
  case faults =>
    have faults {i : Instr} (hi : ChecksSeeded i) : exec i s = .next (haltedWith s 3) :=
      exec_idle hc (commandRule_unseeded hi unseeded)
    exact ⟨faults trivial, fun _ => faults trivial, faults trivial, faults trivial⟩
  case never =>
    have never {i : Instr} (hi : ¬ChecksSeeded i) : exec i s ≠ .next (haltedWith s 3) := fun h =>
      commandRule_ne_unseeded hi hc (Host.Outcome.next.inj ((exec_idle hc rfl).symm.trans h))
    exact ⟨never id, fun _ => never id, fun _ => never id, fun _ => never id⟩

end Sys2Proof.Proofs
end

section
/-! PROOFS. The mix step as a permutation of the words (spec/40_prng.md section 2): each of its three operations can be
undone, so mix is injective, and the rest follows since words are finitely many. -/

namespace Sys2Proof.Machine

/-- Only zero is its own right shift. -/
theorem eq_zero_of_eq_ushiftRight {v : Word} {k : Nat} (hk : k ≠ 0) (h : v = v >>> k) : v = 0#32 := by
  by_contra nonzero
  have pos : 0 < v.toNat := Nat.pos_of_ne_zero fun hv => nonzero (BitVec.eq_of_toNat_eq hv)
  have smaller : v.toNat / 2 ^ k < v.toNat := Nat.div_lt_self pos (Nat.one_lt_two_pow hk)
  have same : v.toNat = v.toNat / 2 ^ k := by
    rw [← Nat.shiftRight_eq_div_pow, ← BitVec.toNat_ushiftRight, ← h]
  exact smaller.ne' same

/-- The XOR of two words with one image is its own right shift. -/
theorem xorShift_injective {k : Nat} (hk : k ≠ 0) : Function.Injective fun v : Word => v ^^^ (v >>> k) := by
  intro v w (h : v ^^^ (v >>> k) = w ^^^ (w >>> k))
  refine BitVec.xor_eq_zero_iff.mp (eq_zero_of_eq_ushiftRight hk ?_)
  calc v ^^^ w = (v ^^^ (v >>> k)) ^^^ (v >>> k) ^^^ w := by rw [BitVec.xor_assoc v, BitVec.xor_self, BitVec.xor_zero]
    _ = (w ^^^ w) ^^^ ((v >>> k) ^^^ (w >>> k)) := by rw [h]; ac_rfl
    _ = (v ^^^ w) >>> k := by rw [BitVec.xor_self, BitVec.zero_xor, BitVec.ushiftRight_xor_distrib]

/-- `MIX_M` is odd, so it has an inverse modulo 2^32. -/
theorem mixM_isUnit : IsUnit Config.mixM := .of_mul_eq_one 0xA5CB9243 (by decide)

theorem mix_injective : Function.Injective mix := by
  intro v w h
  rw [mix_eq, mix_eq] at h
  have products := xorShift_injective (k := 16) (by decide) h
  have factors := mixM_isUnit.mul_left_injective products
  exact xorShift_injective (k := 13) (by decide) factors

theorem mix_zero : mix 0 = 0 := by decide

/-- A word XORed with its own top half, shifted down, keeps its top half. -/
theorem extractLsb'_xorShift_high (v : Word) : (v ^^^ (v >>> 16)).extractLsb' 16 16 = v.extractLsb' 16 16 := by
  have shifted_out : (v >>> 16).extractLsb' 16 16 = 0 := by
    ext i hi
    simp [← Nat.add_assoc]
  rw [BitVec.extractLsb'_xor, shifted_out]
  exact BitVec.xor_zero

end Sys2Proof.Machine
end

section
/-! PROOFS. Who sets a flag, by agent (41_event_flags.md R133), and FTEST's word (R135). -/

namespace Sys2Proof

/-- FTEST's word (41_event_flags.md R135): its flag's index laid over the opcode. -/
theorem encode_ftest_eq_or (f : Flag) :
    encode (.ftest f) = 0x04000000 ||| (BitVec.ofNat 32 f.index.val <<< 16) := by
  cases f <;> rfl

end Sys2Proof

namespace Sys2Proof.Machine

open Sys2Proof.Claims

variable {s t : State} {f g : Flag}

/-- A flag that is set after a write was set by it, or before it. -/
theorem set_or_flag_of_flag_putFlag {b : Bool} (h : (s.putFlag g b).flag f = true) :
    (f = g ∧ b = true) ∨ s.flag f = true := by
  rw [State.flag_putFlag] at h
  split at h
  case isTrue same => exact .inl ⟨same, h⟩
  case isFalse => exact .inr h

/-- A clear sets no flag. -/
theorem flag_of_flag_putFlag_false (h : (s.putFlag g false).flag f = true) : s.flag f = true :=
  (set_or_flag_of_flag_putFlag h).resolve_left nofun

/-- ENGINE sets no flag: it clears CONFIRM and TIMER, and writes no other. -/
theorem EngineMove.flag_of_flag {policy : CapturePolicy} {inp : Inputs} (m : EngineMove policy inp s t)
    (h : t.flag f = true) : s.flag f = true := by
  cases m with
  | guessConfirm => exact flag_of_flag_putFlag_false (g := .confirm) h
  | waitEnd => exact flag_of_flag_putFlag_false (g := .timer) h
  | _ => exact h

/-- A flag that is set after a move was set before it, or the move is the flag's set step. -/
theorem AgentMove.isSetStep_or_flag {a : Action} (m : AgentMove s a t) (h : t.flag f = true) :
    IsSetStep a f s ∨ s.flag f = true := by
  cases m with
  | host | fault | timerRests => exact .inr h
  | command _ _ _ _ _ m => exact .inr (m.flag_of_flag f h)
  | engine _ _ m => exact .inr (m.flag_of_flag h)
  | source g => exact (set_or_flag_of_flag_putFlag h).imp_left fun ⟨same, _⟩ => .inl ⟨g, rfl, same.symm⟩
  | timerFires armed =>
    exact (set_or_flag_of_flag_putFlag (g := .timer) h).imp_left fun ⟨same, _⟩ => .inr ⟨rfl, same, armed⟩
  | reset => cases (State.reset_flag f).symm.trans h

end Sys2Proof.Machine
end

section
/-! PROOFS. The obligations on ENGINE and faults, the mix step, a flag's one writer, the input 255, and FTEST. -/

namespace Sys2Proof.Proofs

open Sys2Proof Sys2Proof.Machine Sys2Proof.Safety Sys2Proof.Claims

/-- Settles O14: no move of ENGINE writes FAULT or FCAUSE, enters HALTED or leaves it. -/
theorem engineNeverFaults : Obligations.EngineNeverFaults := fun inp s =>
  have m := engineStepUnder_move Config.capturePolicy inp s
  ⟨m.halted_iff, m.fault_eq, m.fcause_eq⟩

/-- Settles O25: an injective map of finitely many words is a bijection under which every word recurs. -/
theorem mixIsBijective : Obligations.MixIsBijective := by
  refine ⟨mix_zero, Finite.injective_iff_bijective.mp mix_injective, ?onlyZero, ?recurs, ?high⟩
  case onlyZero => exact fun s h => mix_injective (h.trans mix_zero.symm)
  case recurs => exact fun s => Function.mem_periodicPts.mp (mix_injective.mem_periodicPts s)
  case high => exact fun s => extractLsb'_xorShift_high ((s ^^^ (s >>> 13)) * Config.mixM)

/-- Settles O29: a move that is not the flag's set step leaves a clear flag clear. -/
theorem flagHasSingleWriter : Obligations.FlagHasSingleWriter := fun _ _ _ _ h clear risen =>
  ((act_move h).isSetStep_or_flag risen).resolve_right (Bool.eq_false_iff.mp clear)

/-- Settles O39: TARGET is at most 254 in G_SHOW, so 255 is judged a loss. -/
theorem input255AlwaysLoses : Obligations.Input255AlwaysLoses := by
  intro s inp hs hc capt
  have target_le : s.target.toNat ≤ 254 := (guessInv_drawn (.inr (.inr hc))).mp hs
  have missed : s.capt ≠ s.target := by
    intro hit
    rw [← hit, capt] at target_le
    exact absurd target_le (by decide)
  rw [engineStep_gShow hc]
  refine ⟨decide_eq_false missed, ?record⟩
  case record => simp [judgement, missed]

/-- Settles O19: FTEST's own rule in IDLE, where TIMER's flag is clear. -/
theorem ftestReadsFlag : Obligations.FtestReadsFlag := by
  refine ⟨encode_ftest_eq_or, fun s f hc => exec_idle hc rfl, fun s hc hs => ?timer⟩
  case timer =>
    have outside : OutsideWait s.ctl := by simp [hc, OutsideWait]
    obtain ⟨-, clear⟩ := (timerInv_outsideWait outside).mp hs
    rw [exec_idle hc rfl, commandRule, clear]
    rfl

end Sys2Proof.Proofs
end
